-- ==== Sys2Proof/Word.lean ====
section
/-! DEFINITION. The plain value types of the model: a line character, a fixed table of like things, the
twelve bins of a forecast, and the two arithmetic conventions of the manual (R2). -/

namespace Sys2Proof

/-- One character of a master link (R145): eight data bits. -/
abbrev Byte := BitVec 8

/-- A fixed number of like records, such as the four links or the six pools. -/
abbrev Tab (n : Nat) (α : Type) := Vector α n

/-- One value for each of the twelve bins of a pass. -/
abbrev Bins (α : Type) := Vector α 12

/-- The difference of two quantities, taken without sign (R23, R129). -/
def absDiff (a b : Nat) : Nat := (a - b) + (b - a)

/-- Division rounded up, where the text says ceiling (R2). -/
def ceilDiv (a b : Nat) : Nat := (a + b - 1) / b

end Sys2Proof
end

