-- ==== Sys2Proof/Syntax.lean ====
section
/-! DEFINITION. The commands of the block: one constructor for each row of spec/opcode_table.json. A
request from a master carries its link, its tag and the fields of its body as the frame carries them
(R151, R154, R158); an event of a field line, a timer or a stage carries what it is about. -/

namespace Sys2Proof

/-- The body of a RELEASE frame (R158), field by field. -/
structure RawRelease where
  dam       : Nat
  kind      : Nat
  unit      : Nat
  urgency   : Nat
  flags     : Nat
  requested : Nat
  minimum   : Nat
  offset    : Nat
  duration  : Nat
  deriving DecidableEq, Repr

/-- The record a WRITE_TABLE carries (R14, R154): every field in the order of its table, enumerated fields
as their codes. -/
inductive RawRecord where
  | cascade (damCount tailPresent tailTimeout tailJump : Nat)
  | dam (firstChannel channelCount compensate qBelow tailFixed : Nat)
  | pool (points : Tab 9 (Nat × Nat)) (floor ceiling flood reserve timeout jump : Nat)
  | reach (travel deadband : Nat)
  | channel (kind : Nat) (rating : Tab 9 Nat) (heads : Tab 5 (Nat × Nat))
      (rampInterval openLimit closeLimit tripLimit tolerance trackTime feedbackTimeout
        bringupTimeout manual : Nat)
  | link (cls dam timeout abandon : Nat)
  | precedence (group subgroup : Nat)
  | pass (period binLength : Nat)
  /-- A record-kind code that names no record kind. -/
  | unknown (code : Nat)
  deriving DecidableEq, Repr

/-- The commands. Gauges are numbered as the fault capture numbers them (R166): 1 to 6 for the pools, 7
for the tailwater. Links are 1 to 4, channels 0 to 31, claim slots 0 to 63. -/
inductive Instr where
  | powerOn
  | loadComplete
  | clockWrap
  | gaugeReading (gauge level : Nat) (good : Bool)
  | gaugeTimerExpiry (gauge : Nat)
  | passTimerExpiry
  | routingUpkeep
  | baseForecast
  | sweep
  | forcing
  | publish
  | passCompletion
  | positionReport (channel : Nat) (position : Int)
  | tripAssertion (channel : Nat)
  | tripRelease (channel : Nat)
  | rampStep (channel : Nat)
  | trackingTimerExpiry (channel : Nat)
  | feedbackTimerExpiry (channel : Nat)
  | bringupTimerExpiry (channel : Nat)
  | claimStartReached (slot : Nat)
  | claimEndReached (slot : Nat)
  | frameDiscarded (link : Nat) (bytes : List Byte)
  | unknownKind (link tag kind : Nat)
  | linkTimerExpiry (link : Nat)
  | lineBreak (link : Nat)
  | frameSent (link : Nat)
  | ping (link tag : Nat)
  | release (link tag : Nat) (body : RawRelease)
  | withdraw (link tag handle : Nat)
  | declareInflow (link tag pool : Nat) (rates : List Nat)
  | takeLocal (link tag channel : Nat)
  | setOpening (link tag channel opening : Nat)
  | releaseLocal (link tag channel : Nat)
  | clearFault (link tag channel : Nat)
  | resetTrip (link tag channel : Nat)
  | bringUp (link tag channel : Nat)
  | queryClaim (link tag slot : Nat)
  | queryPoolForecast (link tag pool : Nat)
  | queryDamPlan (link tag dam : Nat)
  | queryChannel (link tag channel : Nat)
  | queryReachQueue (link tag reach : Nat)
  | queryLinkState (link tag index : Nat)
  | queryFaultCapture (link tag index : Nat)
  | queryIdentity (link tag index : Nat)
  | readConditions (link tag : Nat)
  | setMask (link tag mask : Nat)
  | resume (link tag : Nat)
  | hold (link tag : Nat)
  | enterService (link tag : Nat)
  | leaveService (link tag : Nat)
  | writeTable (link tag : Nat) (record : RawRecord) (index : Nat)
  | storeSettings (link tag : Nat)
  | storeStepDone
  | storeComplete
  | storeFailure
  | restart (link tag : Nat)
  deriving DecidableEq, Repr

end Sys2Proof
end

