-- ==== Sys2Proof/WellFormed.lean ====
section
/-! DEFINITION. Which commands can reach the block: every operand within what its line or its frame field
carries. A command that is not well formed is refused by name. -/

namespace Sys2Proof

def isLink (l : Nat) : Bool := 1 ≤ l && l ≤ 4
def isChannel (c : Nat) : Bool := c < 32
def isGauge (g : Nat) : Bool := 1 ≤ g && g ≤ 7
def isSlot (n : Nat) : Bool := n < 64
def fits1 (n : Nat) : Bool := n < 256
def fits2 (n : Nat) : Bool := n < 65536
def fits4 (n : Nat) : Bool := n < 4294967296

/-- A request of a link: its link and its tag (R149). -/
def isRequest (l tag : Nat) : Bool := isLink l && fits1 tag

/-- The kind codes of the catalogue are 0x01 to 0x14 (R151). -/
def isCatalogueKind (k : Nat) : Bool := 1 ≤ k && k ≤ 20

def RawRelease.wf (b : RawRelease) : Bool :=
  fits1 b.dam && fits1 b.kind && fits1 b.unit && fits1 b.urgency && fits1 b.flags &&
  fits2 b.requested && fits2 b.minimum && fits4 b.offset && fits4 b.duration

/-- The field widths of R154. -/
def RawRecord.wf : RawRecord → Bool
  | .cascade n p t j => fits2 n && fits1 p && fits2 t && fits2 j
  | .dam f c y q t => fits2 f && fits2 c && fits1 y && fits2 q && fits2 t
  | .pool pts f c d r t j =>
      pts.toList.all (fun p => fits2 p.1 && fits4 p.2) && fits2 f && fits2 c && fits2 d && fits4 r &&
        fits2 t && fits2 j
  | .reach t d => fits2 t && fits2 d
  | .channel k r h a b c d e f g i m =>
      fits1 k && r.toList.all fits2 && h.toList.all (fun p => fits2 p.1 && fits2 p.2) &&
        [a, b, c, d, e, f, g, i].all fits2 && fits1 m
  | .link c d t a => fits1 c && fits2 d && fits2 t && fits2 a
  | .precedence g s => fits1 g && fits1 s
  | .pass p b => fits2 p && fits2 b
  | .unknown k => fits1 k && !(1 ≤ k && k ≤ 8)

def Instr.wf : Instr → Bool
  | .powerOn => true
  | .loadComplete => true
  | .clockWrap => true
  | .gaugeReading g level _ => isGauge g && fits2 level
  | .gaugeTimerExpiry g => isGauge g
  | .passTimerExpiry => true
  | .routingUpkeep => true
  | .baseForecast => true
  | .sweep => true
  | .forcing => true
  | .publish => true
  | .passCompletion => true
  | .positionReport c _ => isChannel c
  | .tripAssertion c => isChannel c
  | .tripRelease c => isChannel c
  | .rampStep c => isChannel c
  | .trackingTimerExpiry c => isChannel c
  | .feedbackTimerExpiry c => isChannel c
  | .bringupTimerExpiry c => isChannel c
  | .claimStartReached n => isSlot n
  | .claimEndReached n => isSlot n
  | .frameDiscarded l _ => isLink l
  | .unknownKind l t k => isRequest l t && fits1 k && !isCatalogueKind k
  | .linkTimerExpiry l => isLink l
  | .lineBreak l => isLink l
  | .frameSent l => isLink l
  | .ping l t => isRequest l t
  | .release l t b => isRequest l t && b.wf
  | .withdraw l t h => isRequest l t && fits2 h
  | .declareInflow l t p r =>
      isRequest l t && fits1 p && 1 ≤ r.length && r.length ≤ 12 && r.all fits2
  | .takeLocal l t c => isRequest l t && fits1 c
  | .setOpening l t c o => isRequest l t && fits1 c && fits2 o
  | .releaseLocal l t c => isRequest l t && fits1 c
  | .clearFault l t c => isRequest l t && fits1 c
  | .resetTrip l t c => isRequest l t && fits1 c
  | .bringUp l t c => isRequest l t && fits1 c
  | .queryClaim l t i => isRequest l t && fits1 i
  | .queryPoolForecast l t i => isRequest l t && fits1 i
  | .queryDamPlan l t i => isRequest l t && fits1 i
  | .queryChannel l t i => isRequest l t && fits1 i
  | .queryReachQueue l t i => isRequest l t && fits1 i
  | .queryLinkState l t i => isRequest l t && fits1 i
  | .queryFaultCapture l t i => isRequest l t && fits1 i
  | .queryIdentity l t i => isRequest l t && fits1 i
  | .readConditions l t => isRequest l t
  | .setMask l t m => isRequest l t && fits2 m
  | .resume l t => isRequest l t
  | .hold l t => isRequest l t
  | .enterService l t => isRequest l t
  | .leaveService l t => isRequest l t
  | .writeTable l t r i => isRequest l t && r.wf && fits1 i
  | .storeSettings l t => isRequest l t
  | .storeStepDone => true
  | .storeComplete => true
  | .storeFailure => true
  | .restart l t => isRequest l t

end Sys2Proof
end

