-- ==== Sys2Proof/Config.lean ====
section
/-! DEFINITION. The constants of the part and the free values: what the manual leaves open is an
opaque constant here, so that no proof can see it. -/

namespace Sys2Proof.Config

/-- The last second of the cascade clock (R175). -/
def maxClock : Nat := 4294967295

/-- The largest flow a claim, a forced spill or a declared rate may carry, in FU. -/
def maxFlow : Nat := 60000

/-- The largest storage carried in a frame, in VU (R72). -/
def maxStorage : Nat := 4000000000

/-- Slots of the claim table (R74). -/
def claimSlots : Nat := 64

/-- Places of a link's request buffer (R149). -/
def bufferPlaces : Nat := 4

/-- Steps a reach queue holds (R38). -/
def queueSteps : Nat := 32

/-- The count at or below which a retirement clears the coarsened flag (R40). -/
def clearSteps : Nat := 24

/-- DESIGN CHOICE (log entry 2). The local opening of a hold taken on a channel in FAULT that never had a
setpoint: R137 sets it to the present setpoint, R135 says it is present, and no rule states its value. -/
opaque freeOpening : Nat → Nat

/-- DESIGN CHOICE (log entry 3). The bytes that carry a value too wide for its frame field; the manual
states no result there. -/
opaque unfitted : Nat → Nat → List Byte

end Sys2Proof.Config
end

