-- ==== Sys2Proof/Machine/Tab.lean ====
section
/-! DEFINITION. Reading and writing a fixed table: by the manual's numbers from 1 (dams, pools, reaches, links,
gauges, bins) or from 0 (channels, claim slots, table points). A number outside the table reads as the
default record and a write there changes nothing. -/

namespace Sys2Proof.Machine

/-- The record numbered k, counted from 0. -/
def get0 {n : Nat} {α : Type} [Inhabited α] (t : Tab n α) (k : Nat) : α := t[k]?.getD default

/-- The table with record k, counted from 0, replaced. -/
def put0 {n : Nat} {α : Type} (t : Tab n α) (k : Nat) (a : α) : Tab n α := t.setIfInBounds k a

/-- The table whose record k, counted from 0, is f k. -/
def gen0 {n : Nat} {α : Type} (f : Nat → α) : Tab n α := Vector.ofFn fun i => f i.val

/-- The record numbered k, counted from 1. -/
def get1 {n : Nat} {α : Type} [Inhabited α] (t : Tab n α) (k : Nat) : α :=
  match k with
  | 0 => default
  | j + 1 => get0 t j

/-- The table with record k, counted from 1, replaced. -/
def put1 {n : Nat} {α : Type} (t : Tab n α) (k : Nat) (a : α) : Tab n α :=
  match k with
  | 0 => t
  | j + 1 => put0 t j a

/-- The table whose record k, counted from 1, is f k. -/
def gen1 {n : Nat} {α : Type} (f : Nat → α) : Tab n α := gen0 fun i => f (i + 1)

/-- The bin numbers of a pass. -/
def binNumbers : List Nat := [1, 2, 3, 4, 5, 6, 7, 8, 9, 10, 11, 12]

/-- The largest of a list, and 0 for an empty one. -/
def listMax (l : List Nat) : Nat := l.foldl max 0

/-- The sum over a list. -/
def sumOver {α : Type} (l : List α) (f : α → Nat) : Nat := (l.map f).sum

end Sys2Proof.Machine
end

