-- ==== Sys2Proof/Machine/Tables.lean ====
section
/-! DEFINITION. The stored cascade description (chapter 1): the records of a table set, the empty set (R13), the
record a WRITE_TABLE carries (R14, R159) and validation (R15, R16). -/

namespace Sys2Proof.Machine

/-- R8. -/
inductive ChanKind where
  | turbine | spill
  deriving DecidableEq, Repr, Inhabited

/-- R10. -/
inductive MasterClass where
  | dispatch | flood | station | service
  deriving DecidableEq, Repr, Inhabited

/-- R4. -/
structure CascadeRec where
  damCount    : Nat := 0
  tailPresent : Bool := false
  tailTimeout : Nat := 60
  tailJump    : Nat := 50
  deriving DecidableEq, Repr, Inhabited

/-- R5. -/
structure DamRec where
  firstChannel : Nat := 0
  channelCount : Nat := 1
  compensate   : Bool := true
  qBelow       : Nat := 0
  tailFixed    : Nat := 0
  deriving DecidableEq, Repr, Inhabited

/-- R6. The points are (level, storage), L0 to L8. -/
structure PoolRec where
  points  : Tab 9 (Nat × Nat) := Vector.replicate 9 (0, 0)
  floor   : Nat := 0
  ceiling : Nat := 0
  flood   : Nat := 0
  reserve : Nat := 0
  timeout : Nat := 60
  jump    : Nat := 50
  deriving DecidableEq, Repr, Inhabited

/-- R7. -/
structure ReachRec where
  travel   : Nat := 0
  deadband : Nat := 10
  deriving DecidableEq, Repr, Inhabited

/-- R8 and R9. The head points are (head, factor). -/
structure ChanRec where
  kind            : ChanKind := .turbine
  rating          : Tab 9 Nat := Vector.replicate 9 0
  heads           : Tab 5 (Nat × Nat) := #v[(0, 1024), (1, 1024), (2, 1024), (3, 1024), (4, 1024)]
  rampInterval    : Nat := 2
  openLimit       : Nat := 20
  closeLimit      : Nat := 20
  tripLimit       : Nat := 1000
  tolerance       : Nat := 30
  trackTime       : Nat := 20
  feedbackTimeout : Nat := 3
  bringupTimeout  : Nat := 30
  manual          : Bool := false
  deriving DecidableEq, Repr, Inhabited

/-- R10. -/
structure LinkRec where
  cls     : MasterClass := .dispatch
  dam     : Nat := 1
  timeout : Nat := 10
  abandon : Nat := 600
  deriving DecidableEq, Repr, Inhabited

/-- R11: each field says whether the order named first in its row is in force. -/
structure PrecedenceRec where
  floodFirst    : Bool := true
  dispatchFirst : Bool := true
  deriving DecidableEq, Repr, Inhabited

/-- R12. -/
structure PassRec where
  period    : Nat := 120
  binLength : Nat := 600
  deriving DecidableEq, Repr, Inhabited

/-- R3. The slots of a table set. -/
structure TableSet where
  cascade    : CascadeRec
  dams       : Tab 6 DamRec
  pools      : Tab 6 PoolRec
  reaches    : Tab 5 ReachRec
  channels   : Tab 32 ChanRec
  links      : Tab 4 LinkRec
  precedence : PrecedenceRec
  pass       : PassRec
  deriving DecidableEq, Repr, Inhabited

/-- R13. The empty set: every default, dam count 0, Link 1 SERVICE and Links 2 to 4 DISPATCH. -/
def emptySet : TableSet :=
  { cascade := {}
    dams := Vector.replicate 6 {}
    pools := Vector.replicate 6 {}
    reaches := Vector.replicate 5 {}
    channels := Vector.replicate 32 {}
    links := #v[{ cls := .service }, {}, {}, {}]
    precedence := {}
    pass := {} }

/-! ### The record of a WRITE_TABLE -/

/-- A record with its codes named (R159). -/
inductive Record where
  | cascade (r : CascadeRec)
  | dam (r : DamRec)
  | pool (r : PoolRec)
  | reach (r : ReachRec)
  | channel (r : ChanRec)
  | link (r : LinkRec)
  | precedence (r : PrecedenceRec)
  | pass (r : PassRec)
  deriving DecidableEq, Repr

/-- R159: yes or no. -/
def yesNoOf : Nat → Option Bool
  | 0 => some false
  | 1 => some true
  | _ => none

/-- R159: channel kind and claim kind. -/
def chanKindOf : Nat → Option ChanKind
  | 0 => some .turbine
  | 1 => some .spill
  | _ => none

/-- R159: master class. -/
def classOf : Nat → Option MasterClass
  | 0 => some .dispatch
  | 1 => some .flood
  | 2 => some .station
  | 3 => some .service
  | _ => none

/-- R159: a two-valued order, true for the order coded 0. -/
def orderOf : Nat → Option Bool
  | 0 => some true
  | 1 => some false
  | _ => none

/-- R14: the record carried, or none where a code names no value of its enumeration. -/
def typedRecord : RawRecord → Option Record
  | .cascade n p t j =>
      (yesNoOf p).map fun p => .cascade { damCount := n, tailPresent := p, tailTimeout := t, tailJump := j }
  | .dam f c y q t =>
      (yesNoOf y).map fun y =>
        .dam { firstChannel := f, channelCount := c, compensate := y, qBelow := q, tailFixed := t }
  | .pool pts f c d r t j =>
      some (.pool { points := pts, floor := f, ceiling := c, flood := d, reserve := r, timeout := t, jump := j })
  | .reach t d => some (.reach { travel := t, deadband := d })
  | .channel k r h a b c d e f g i m =>
      match chanKindOf k, yesNoOf m with
      | some k, some m =>
          some (.channel { kind := k, rating := r, heads := h, rampInterval := a, openLimit := b,
                           closeLimit := c, tripLimit := d, tolerance := e, trackTime := f,
                           feedbackTimeout := g, bringupTimeout := i, manual := m })
      | _, _ => none
  | .link c d t a =>
      (classOf c).map fun c => .link { cls := c, dam := d, timeout := t, abandon := a }
  | .precedence g s =>
      match orderOf g, orderOf s with
      | some g, some s => some (.precedence { floodFirst := g, dispatchFirst := s })
      | _, _ => none
  | .pass p b => some (.pass { period := p, binLength := b })
  | .unknown _ => none

/-- R14: the index range of each record kind. -/
def Record.indexOk : Record → Nat → Bool
  | .cascade _, i => i == 0
  | .dam _, i => 1 ≤ i && i ≤ 6
  | .pool _, i => 1 ≤ i && i ≤ 6
  | .reach _, i => 1 ≤ i && i ≤ 5
  | .channel _, i => i ≤ 31
  | .link _, i => 1 ≤ i && i ≤ 4
  | .precedence _, i => i == 0
  | .pass _, i => i == 0

/-- R14: the set with one record replaced whole. -/
def TableSet.write (t : TableSet) (r : Record) (i : Nat) : TableSet :=
  match r with
  | .cascade r => { t with cascade := r }
  | .dam r => { t with dams := put1 t.dams i r }
  | .pool r => { t with pools := put1 t.pools i r }
  | .reach r => { t with reaches := put1 t.reaches i r }
  | .channel r => { t with channels := put0 t.channels i r }
  | .link r => { t with links := put1 t.links i r }
  | .precedence r => { t with precedence := r }
  | .pass r => { t with pass := r }

/-! ### What is configured (R4, R5) -/

def TableSet.dam (t : TableSet) (k : Nat) : DamRec := get1 t.dams k
def TableSet.pool (t : TableSet) (k : Nat) : PoolRec := get1 t.pools k
def TableSet.reach (t : TableSet) (k : Nat) : ReachRec := get1 t.reaches k
def TableSet.channel (t : TableSet) (c : Nat) : ChanRec := get0 t.channels c
def TableSet.link (t : TableSet) (l : Nat) : LinkRec := get1 t.links l

/-- The numbers of the configured dams and pools, D1 to DN. -/
def TableSet.damNumbers (t : TableSet) : List Nat := (List.range t.cascade.damCount).map (· + 1)

/-- Is k a configured dam or pool? -/
def TableSet.hasDam (t : TableSet) (k : Nat) : Bool := 1 ≤ k && k ≤ t.cascade.damCount

/-- Is k a configured reach, 1 to N-1? -/
def TableSet.hasReach (t : TableSet) (k : Nat) : Bool := 1 ≤ k && k < t.cascade.damCount

/-- R5: is channel c in the channel range of dam k? -/
def TableSet.inDam (t : TableSet) (k c : Nat) : Bool :=
  t.hasDam k && (t.dam k).firstChannel ≤ c && c < (t.dam k).firstChannel + (t.dam k).channelCount

/-- The channel numbers of the device. -/
def channelNumbers : List Nat := List.range 32

/-- R5: the channels of dam k, ascending. -/
def TableSet.damChannels (t : TableSet) (k : Nat) : List Nat := channelNumbers.filter (t.inDam k)

/-- The dam a channel belongs to, if it is configured. -/
def TableSet.damOf (t : TableSet) (c : Nat) : Option Nat := t.damNumbers.find? fun k => t.inDam k c

/-! ### Validation -/

def within (lo hi n : Nat) : Bool := lo ≤ n && n ≤ hi

/-- Is a list strictly increasing? -/
def rising : List Nat → Bool
  | a :: b :: l => a < b && rising (b :: l)
  | _ => true

/-- Is a list non-decreasing? -/
def nonFalling : List Nat → Bool
  | a :: b :: l => a ≤ b && nonFalling (b :: l)
  | _ => true

/-- R15 step 1. -/
def TableSet.cascadeOk (t : TableSet) : Bool :=
  within 1 6 t.cascade.damCount &&
    (!t.cascade.tailPresent || (within 5 600 t.cascade.tailTimeout && within 1 500 t.cascade.tailJump))

/-- R15 step 2: the fields of dam k, and its channel range against C31 and the lower-numbered dams. -/
def TableSet.damOk (t : TableSet) (k : Nat) : Bool :=
  let r := t.dam k
  within 0 31 r.firstChannel && within 1 8 r.channelCount &&
    (k != t.cascade.damCount || (within 0 60000 r.qBelow && within 0 65535 r.tailFixed)) &&
    r.firstChannel + r.channelCount ≤ 32 &&
    (t.damChannels k).all fun c => (List.range k).all fun j => !t.inDam j c

/-- R15 step 3. -/
def PoolRec.ok (r : PoolRec) : Bool :=
  let levels := r.points.toList.map (·.1)
  let storages := r.points.toList.map (·.2)
  levels.all (within 0 65535) && storages.all (within 0 4000000000) && rising levels && rising storages &&
    (get0 r.points 0).1 ≤ r.floor && r.floor < r.ceiling && r.ceiling ≤ r.flood &&
    r.flood ≤ (get0 r.points 8).1 &&
    within 0 100000000 r.reserve && within 5 600 r.timeout && within 1 500 r.jump

/-- R15 step 4. -/
def ReachRec.ok (r : ReachRec) : Bool := within 0 65535 r.travel && within 0 1000 r.deadband

/-- R15 step 5. -/
def ChanRec.ok (r : ChanRec) : Bool :=
  let heads := r.heads.toList.map (·.1)
  r.rating.toList.all (within 0 60000) && get0 r.rating 0 == 0 && nonFalling r.rating.toList &&
    1 ≤ get0 r.rating 8 &&
    heads.all (within 0 65535) && rising heads && (r.heads.toList.map (·.2)).all (within 0 4095) &&
    within 1 10 r.rampInterval && within 1 200 r.openLimit && within 1 200 r.closeLimit &&
    (r.kind != .turbine || within 1 1000 r.tripLimit) &&
    within 5 200 r.tolerance && within 2 120 r.trackTime && within 1 30 r.feedbackTimeout &&
    within 5 300 r.bringupTimeout

/-- R15 step 6. -/
def TableSet.linkOk (t : TableSet) (l : Nat) : Bool :=
  let r := t.link l
  within 2 60 r.timeout && within 0 3600 r.abandon &&
    (r.cls != .station || t.hasDam r.dam) &&
    (r.cls != .service || (List.range l).all fun j => j == 0 || (t.link j).cls != .service)

/-- R15 step 8. -/
def PassRec.ok (r : PassRec) : Bool := within 30 900 r.period && within 60 3600 r.binLength

/-- R15 and R16: the checks of validation in their order, each with the failure record it gives. The precedence setting
holds no value that fails. -/
def TableSet.checks (t : TableSet) : List (Bool × Nat × Nat) :=
  (t.cascadeOk, 1, 0) ::
    (t.damNumbers.map fun k => (t.damOk k, 2, k)) ++
    (t.damNumbers.map fun k => ((t.pool k).ok, 3, k)) ++
    ((t.damNumbers.filter t.hasReach).map fun k => ((t.reach k).ok, 4, k)) ++
    ((channelNumbers.filter fun c => (t.damOf c).isSome).map fun c => ((t.channel c).ok, 5, c)) ++
    ([1, 2, 3, 4].map fun l => (t.linkOk l, 6, l)) ++
    [(true, 7, 0), (t.pass.ok, 8, 0)]

/-- R15: the failure record of the first failing check, none where every check passes. A dam count outside 1 to 6
fails the first check, so the later ones are not examined. -/
def TableSet.validate (t : TableSet) : Option (Nat × Nat) :=
  if t.cascadeOk then (t.checks.find? fun c => !c.1).map (·.2) else some (1, 0)

end Sys2Proof.Machine
end

