-- ==== Sys2Proof/Machine/Image.lean ====
section
/-! DEFINITION. Bytes and the stored image: numbers in fields of bytes (R156), the fields of a record (R154), the encoded table
set of the settings store and its CRC-32 (R169). -/

namespace Sys2Proof.Machine

/-! ### Fields -/

/-- The low w bytes of a number, the high byte first. -/
def lowBytes : Nat → Nat → List Byte
  | 0, _ => []
  | w + 1, n => lowBytes w (n / 256) ++ [BitVec.ofNat 8 n]

/-- R156: a number in a field of w bytes, the high byte first. DESIGN CHOICE (log entry 3): a number too wide for its field
is a free value. -/
def field (w n : Nat) : List Byte := if n < 256 ^ w then lowBytes w n else Config.unfitted w n

/-- R159: the code of a yes or no field, a flag or a mark. -/
def codeOfBool (b : Bool) : Nat := if b then 1 else 0

def ChanKind.code : ChanKind → Nat
  | .turbine => 0
  | .spill => 1

def MasterClass.code : MasterClass → Nat
  | .dispatch => 0
  | .flood => 1
  | .station => 2
  | .service => 3

/-! ### Records -/

/-- R154: the widths of the fields of a record kind, in the order of its table. -/
def recordWidths : Nat → List Nat
  | 1 => [2, 1, 2, 2]
  | 2 => [2, 2, 1, 2, 2]
  | 3 => List.flatten (List.replicate 9 [2, 4]) ++ [2, 2, 2, 4, 2, 2]
  | 4 => [2, 2]
  | 5 => 1 :: List.replicate 9 2 ++ List.replicate 10 2 ++ List.replicate 8 2 ++ [1]
  | 6 => [1, 2, 2, 2]
  | 7 => [1, 1]
  | _ => [2, 2]

/-- R159: the record-kind code of a record. -/
def Record.kindCode : Record → Nat
  | .cascade _ => 1
  | .dam _ => 2
  | .pool _ => 3
  | .reach _ => 4
  | .channel _ => 5
  | .link _ => 6
  | .precedence _ => 7
  | .pass _ => 8

/-- R154: the fields of a record in the order of its table, each as its number or code. A precedence order is coded 0 for the
one its row names first (R159). -/
def Record.values : Record → List Nat
  | .cascade r => [r.damCount, codeOfBool r.tailPresent, r.tailTimeout, r.tailJump]
  | .dam r => [r.firstChannel, r.channelCount, codeOfBool r.compensate, r.qBelow, r.tailFixed]
  | .pool r =>
      r.points.toList.flatMap (fun p => [p.1, p.2]) ++ [r.floor, r.ceiling, r.flood, r.reserve, r.timeout, r.jump]
  | .reach r => [r.travel, r.deadband]
  | .channel r =>
      r.kind.code :: r.rating.toList ++ r.heads.toList.flatMap (fun p => [p.1, p.2]) ++
        [r.rampInterval, r.openLimit, r.closeLimit, r.tripLimit, r.tolerance, r.trackTime, r.feedbackTimeout,
          r.bringupTimeout, codeOfBool r.manual]
  | .link r => [r.cls.code, r.dam, r.timeout, r.abandon]
  | .precedence r => [codeOfBool (!r.floodFirst), codeOfBool (!r.dispatchFirst)]
  | .pass r => [r.period, r.binLength]

/-- R154: a record as WRITE_TABLE carries it. -/
def Record.bytes (r : Record) : List Byte := (List.zipWith field (recordWidths r.kindCode) r.values).flatten

/-! ### The image of the settings store -/

/-- R3: the records of every slot of a table set, in the order R3 lists them. -/
def TableSet.records (t : TableSet) : List Record :=
  .cascade t.cascade :: (t.dams.toList.map .dam ++ t.pools.toList.map .pool ++ t.reaches.toList.map .reach ++
    t.channels.toList.map .channel ++ t.links.toList.map .link ++ [.precedence t.precedence, .pass t.pass])

/-- R169: the encoded table set. DESIGN CHOICE (log entry 8): every slot in the order of R3, its record as R154 carries it. -/
def TableSet.bytes (t : TableSet) : List Byte := t.records.flatMap Record.bytes

/-- R169: one bit of the CRC-32, polynomial 0x04C11DB7. -/
def crc32Bit (c : BitVec 32) : BitVec 32 := if c.msb then (c <<< 1) ^^^ 0x04C11DB7#32 else c <<< 1

/-- R169: one byte of the CRC-32, its most significant bit first. -/
def crc32Byte (c : BitVec 32) (b : Byte) : BitVec 32 :=
  let c := c ^^^ (b.setWidth 32 <<< 24)
  crc32Bit (crc32Bit (crc32Bit (crc32Bit (crc32Bit (crc32Bit (crc32Bit (crc32Bit c)))))))

/-- R169: the CRC-32 of bytes carried on from a value: the left fold of crc32Byte (crc32From_eq_foldl). Each value is matched as a
number before it is carried on, which keeps the evaluation of a long image shallow. -/
def crc32From : List Byte → BitVec 32 → BitVec 32
  | [], c => c
  | b :: l, c =>
    match (crc32Byte c b).toNat with
    | 0 => crc32From l 0#32
    | n + 1 => crc32From l (BitVec.ofNat 32 (n + 1))

/-- R169: CRC-32, polynomial 0x04C11DB7. DESIGN CHOICE (log entry 8): initial value 0xFFFFFFFF, no reflection and no inversion,
as R146 has them for its CRC-16. -/
def crc32 (l : List Byte) : BitVec 32 := crc32From l 0xFFFFFFFF#32

/-- R169: the checksum the Mode Controller computes over every byte of an image before its checksum field. -/
def TableSet.checksum (t : TableSet) : BitVec 32 := crc32 t.bytes

end Sys2Proof.Machine
end

