-- ==== Sys2Proof/Machine/State.lean ====
section
/-! DEFINITION. Everything the manual says the part holds, as plain data, and its value after reset. -/

namespace Sys2Proof.Machine

/-! ### Mode Controller (chapter 11) -/

/-- R168. -/
inductive Mode where
  | loading | configFault | hold | coordinate | service
  deriving DecidableEq, Repr, Inhabited

/-- R175. -/
inductive ResetCause where
  | powerOn | restart
  deriving DecidableEq, Repr, Inhabited

/-- R16. -/
inductive LoadResult where
  | loading | valid | checksumFailed
  | failure (table index : Nat)
  deriving DecidableEq, Repr, Inhabited

/-- R172: the three steps of a settings write. -/
inductive StorePhase where
  | invalidating | writingImage | writingChecksum
  deriving DecidableEq, Repr, Inhabited

/-- R172: the last store result. -/
inductive StoreResult where
  | none | done | failed
  deriving DecidableEq, Repr, Inhabited

/-- R169, R172: the stored image with its checksum field, the write in flight with its snapshot (absent when IDLE), and the
last store result. The field is absent in a store never written and after its invalidation (log entry 8). -/
structure Store where
  image    : TableSet := emptySet
  checksum : Option (BitVec 32) := none
  writing  : Option (StorePhase × TableSet) := none
  result   : StoreResult := .none
  deriving DecidableEq, Repr, Inhabited

/-! ### Gauge Interface and Balance Unit (chapters 2 and 4) -/

/-- R17: the held limit storages of a pool. -/
structure Limits where
  floor   : Nat := 0
  ceiling : Nat := 0
  flood   : Nat := 0
  deriving DecidableEq, Repr, Inhabited

inductive GaugeState where
  | await | good | lost
  deriving DecidableEq, Repr, Inhabited

/-- Section 2.1. The timer field holds the second of its expiry, absent while it is stopped; so do all timers here. -/
structure Gauge where
  state     : GaugeState := .await
  accepted  : Option Nat := none
  candidate : Option Nat := none
  timer     : Option Nat := none
  deriving DecidableEq, Repr, Inhabited

/-- R29: the basis a pass took, its basis time, and the bin length of that pass. -/
structure PassBasis where
  storage : Nat
  time    : Nat
  bin     : Nat
  deriving DecidableEq, Repr, Inhabited

/-- Sections 2.1 and 4.1: what the Balance Unit holds for a pool outside a pass. -/
structure Pool where
  basis     : Option Nat := none
  passBasis : Option PassBasis := none
  reckoning : Int := 0
  rates     : Bins Nat := Vector.replicate 12 0
  declared  : Option (Bins Nat) := none
  deriving DecidableEq, Repr, Inhabited

/-- The arrays F and P of one pool (R56). -/
structure PoolForecast where
  storage : Bins Int := Vector.replicate 12 0
  peak    : Bins Int := Vector.replicate 12 0
  deriving DecidableEq, Repr, Inhabited

/-- A forecast with the pass start and bin length it was built with (section 4.1). -/
structure Forecast where
  start : Nat := 0
  bin   : Nat := 0
  pools : Tab 6 PoolForecast := Vector.replicate 6 {}
  deriving DecidableEq, Repr, Inhabited

/-- R50. -/
inductive PassState where
  | idle | deferred | running
  deriving DecidableEq, Repr, Inhabited

/-- The stage a RUNNING pass makes next; stage 1 is made as it becomes RUNNING. -/
inductive Stage where
  | routing | base | sweep | forcing | publish | completion
  deriving DecidableEq, Repr, Inhabited

/-- R99: the last forcing record. -/
structure ForcingRecord where
  requirement : Nat
  cap         : Nat
  capBit      : Bool
  held        : Bool
  deriving DecidableEq, Repr, Inhabited

/-- What stages 3 and 5 of a pass hold for a dam: the constant parts read at stage 3, the working forced spill and
the forcing record (R65, R67). -/
structure WorkDam where
  compensation : Nat := 0
  unmanaged    : Nat := 0
  forced       : Nat := 0
  record       : Option ForcingRecord := none
  deriving DecidableEq, Repr, Inhabited

/-- Section 4.1, and the working values of a pass in flight. -/
structure Pass where
  state    : PassState := .idle
  again    : Bool := false
  timer    : Option Nat := none
  stage    : Stage := .routing
  forecast : Forecast := {}
  rates    : Tab 6 (Bins Nat) := Vector.replicate 6 (Vector.replicate 12 0)
  dams     : Tab 6 WorkDam := Vector.replicate 6 {}
  deriving DecidableEq, Repr, Inhabited

/-! ### Routing Unit (chapter 3) -/

/-- R36, R37: actual outflow, accumulator and accumulation mark of a dam. -/
structure DamFlow where
  outflow : Nat := 0
  volume  : Nat := 0
  mark    : Nat := 0
  deriving DecidableEq, Repr, Inhabited

/-- R38. -/
structure RoutingStep where
  flow      : Nat
  departure : Nat
  deriving DecidableEq, Repr, Inhabited

/-- Section 3.1: the step queue (oldest first; empty is unseeded), the coarsened flag, the arrived volume and the
retirement cut. -/
structure Reach where
  queue     : List RoutingStep := []
  coarsened : Bool := false
  arrived   : Nat := 0
  cut       : Nat := 0
  deriving DecidableEq, Repr, Inhabited

/-! ### Release Allocator (chapters 5 and 6) -/

inductive ClaimGroup where
  | flood | dispatch | station
  deriving DecidableEq, Repr, Inhabited

/-- The kind of a claim; a TURBINE claim names its unit by global channel number. -/
inductive ClaimKind where
  | turbine (unit : Nat)
  | spill
  deriving DecidableEq, Repr, Inhabited

/-- R77. -/
inductive ClaimState where
  | pending | granted | clamped | suspended
  deriving DecidableEq, Repr, Inhabited

/-- R90: the withdrawn mark, with who set it (R97 asks at the publish). -/
inductive WithdrawMark where
  | clear | byOwner | byService
  deriving DecidableEq, Repr, Inhabited

/-- R75, and the working copy of a pass (section 4.3): working grant and state, and the end the sweep used. The
field reached is the model's: its end has been taken while a pass kept it in the table (R91, R92). -/
structure Claim where
  handle    : Nat
  owner     : Nat
  group     : ClaimGroup
  urgency   : Nat
  dam       : Nat
  kind      : ClaimKind
  requested : Nat
  minimum   : Nat
  start     : Nat
  finish    : Option Nat
  deadline  : Option Nat := none
  withdrawn : WithdrawMark := .clear
  state     : ClaimState := .pending
  grant     : Nat := 0
  held      : Option Nat := none
  reached   : Bool := false
  workGrant : Nat := 0
  workState : ClaimState := .pending
  workEnd   : Option Nat := none
  deriving DecidableEq, Repr, Inhabited

/-- The fields of an accepted RELEASE (R79), its unit mapped to a global number (R153). -/
structure ClaimRequest where
  dam       : Nat
  kind      : ClaimKind
  urgency   : Nat
  requested : Nat
  minimum   : Nat
  offset    : Nat
  duration  : Option Nat
  deriving DecidableEq, Repr, Inhabited

/-- R81. -/
structure IntakeEntry where
  link    : Nat
  tag     : Nat
  request : ClaimRequest
  arrival : Nat
  cls     : MasterClass
  dam     : Nat
  deriving DecidableEq, Repr, Inhabited

/-- R99. -/
structure CompEntry where
  unit : Nat
  flow : Nat
  deriving DecidableEq, Repr, Inhabited

/-- R99. -/
structure DamPlan where
  forced  : Nat := 0
  entries : List CompEntry := []
  record  : Option ForcingRecord := none
  deriving DecidableEq, Repr, Inhabited

/-! ### Gate Channel Controller (chapters 7 and 8) -/

inductive ChanState where
  | offline | bringup | ready | moving | fault | tripped
  deriving DecidableEq, Repr, Inhabited

inductive FaultKind where
  | tracking | noFeedback | feedbackRange | bringupTimeout
  deriving DecidableEq, Repr, Inhabited

/-- Sections 7.1 and 8.1. The field command is the opening last sent on the actuator line and commandCount how many
were sent since reset (R126): the model's view of the actuator line. -/
structure Channel where
  state         : ChanState := .offline
  target        : Option Nat := none
  targetFlow    : Option Nat := none
  setpoint      : Option Nat := none
  measured      : Option Nat := none
  actual        : Nat := 0
  shortfall     : Bool := false
  faultKind     : Option FaultKind := none
  waitMark      : Bool := false
  rampTimer     : Option Nat := none
  trackTimer    : Option Nat := none
  feedbackTimer : Option Nat := none
  bringupTimer  : Option Nat := none
  holder        : Option Nat := none
  localOpening  : Option Nat := none
  orphan        : Bool := false
  command       : Option Nat := none
  commandCount  : Nat := 0
  deriving DecidableEq, Repr, Inhabited

/-- R135. -/
inductive Source where
  | allocation | localHold | trip
  deriving DecidableEq, Repr, Inhabited

/-! ### Replies and frames (chapter 9) -/

/-- The refusals and OK of R157. -/
inductive Status where
  | ok | notPermitted | badIndex | badValue | wrongMode | wrongState | busy | heldByOther | tableFull | noSuchClaim
  deriving DecidableEq, Repr, Inhabited

/-- R98: the record of an occupied claim slot. -/
structure ClaimView where
  handle    : Nat
  position  : Nat
  owner     : Nat
  group     : ClaimGroup
  urgency   : Nat
  dam       : Nat
  kind      : ClaimKind
  requested : Nat
  minimum   : Nat
  start     : Nat
  finish    : Option Nat
  deadline  : Option Nat
  withdrawn : Bool
  state     : ClaimState
  grant     : Nat
  held      : Option Nat
  deriving DecidableEq, Repr, Inhabited

/-- R72: a published forecast as a reply carries it, each value with its clipped flag. -/
structure ForecastView where
  start   : Nat
  bin     : Nat
  storage : Bins (Nat × Bool)
  peak    : Bins (Nat × Bool)
  rates   : Bins Nat
  deriving DecidableEq, Repr, Inhabited

/-- R72. -/
structure PoolView where
  forecast  : Option ForecastView
  passState : PassState
  again     : Bool
  declared  : Bool
  basis     : Option Nat
  passBasis : Option (Nat × Nat)
  gauge     : GaugeState
  reckoning : Int
  deriving DecidableEq, Repr, Inhabited

/-- R114. Each entry carries its unit, its flow and the present sum of held grants. -/
structure PlanView where
  forced       : Nat
  entries      : List (Nat × Nat × Nat)
  compensation : Nat
  unmanaged    : Nat
  record       : Option ForcingRecord
  deriving DecidableEq, Repr, Inhabited

/-- R134 with the local items of R144. -/
structure ChannelView where
  kind         : ChanKind
  dam          : Nat
  state        : ChanState
  source       : Source
  holder       : Option Nat
  target       : Option Nat
  targetFlow   : Option Nat
  setpoint     : Option Nat
  measured     : Option Nat
  actual       : Nat
  capacity     : Nat
  head         : Nat
  shortfall    : Bool
  waitMark     : Bool
  faultKind    : Option FaultKind
  tripInput    : Option Bool
  localOpening : Option Nat
  orphan       : Bool
  deriving DecidableEq, Repr, Inhabited

/-- R47. -/
structure ReachView where
  count     : Nat
  coarsened : Bool
  travel    : Nat
  deadband  : Nat
  oldest    : Option RoutingStep
  newest    : Option RoutingStep
  cut       : Nat
  arrived   : Nat
  outflow   : Nat
  volume    : Nat
  deriving DecidableEq, Repr, Inhabited

/-- R156: the link state record. -/
structure LinkView where
  cls           : MasterClass
  dam           : Option Nat
  up            : Bool
  lastFrame     : Option Nat
  timeout       : Nat
  abandon       : Nat
  buffered      : Nat
  queued        : Nat
  statusPending : Bool
  mask          : BitVec 12
  owned         : Nat
  abandoned     : Nat
  holds         : List (Nat × Bool)
  deriving DecidableEq, Repr, Inhabited

/-- R156: the identity record. -/
structure IdentityView where
  family     : Nat
  part       : Nat
  cause      : ResetCause
  loadResult : LoadResult
  mode       : Mode
  writing    : Bool
  result     : StoreResult
  damCount   : Nat
  clock      : Nat
  deriving DecidableEq, Repr, Inhabited

/-- R166: the kinds of a captured fault. -/
inductive CaptureKind where
  | channelTracking | channelNoFeedback | channelFeedbackRange | bringupTimeout | gaugeLost | storeFailed
  deriving DecidableEq, Repr, Inhabited

/-- R166: a full fault capture. -/
structure Capture where
  kind     : CaptureKind
  subject  : Nat
  time     : Nat
  setpoint : Option Nat
  measured : Option Nat
  later    : Nat
  deriving DecidableEq, Repr, Inhabited

/-- R156: the records a QUERY returns, as they stood when it was checked. -/
inductive QueryRecord where
  | emptySlot (slot generation : Nat)
  | claim (v : ClaimView)
  | poolForecast (v : PoolView)
  | damPlan (v : PlanView)
  | channel (v : ChannelView)
  | reach (v : ReachView)
  | linkState (v : LinkView)
  | capture (v : Option Capture)
  | identity (v : IdentityView)
  deriving DecidableEq, Repr, Inhabited

/-- R157, R158: what the body of a reply carries. -/
inductive ReplyBody where
  | status (c : Status)
  | claim (state : ClaimState) (handle grant : Nat)
  | badTable (table index : Nat)
  | record (r : QueryRecord)
  | conditions (latched : BitVec 12) (band : BitVec 6)
  deriving DecidableEq, Repr, Inhabited

/-- A frame the part sends (R158). The kind of a reply is its kind byte on the line. -/
inductive TxFrame where
  | reply (kind tag : Nat) (body : ReplyBody)
  | status (mode : Mode) (published : Bool) (latched : BitVec 12) (band : BitVec 6)
  deriving DecidableEq, Repr, Inhabited

/-- R149: what waits for the transmitter of a link, in the order it became ready: the reply of the first buffered
request, a STATUS frame (whose contents are taken as its transmission begins), or a BUSY reply. -/
inductive TxItem where
  | first
  | status
  | busy (kind tag : Nat)
  deriving DecidableEq, Repr, Inhabited

/-- R149: a buffered request: the kind byte and tag of its reply, and the reply once formed (absent while in
progress). -/
structure BufEntry where
  kind  : Nat
  tag   : Nat
  reply : Option ReplyBody := none
  deriving DecidableEq, Repr, Inhabited

/-- Chapters 9 and 10: what the Link Interface and the Condition Unit hold for a link. The field rx holds the
characters received from a marker on while the receiver is collecting, and is empty while it is hunting (R145). A bit
of the mask is set for a masked kind. -/
structure Link where
  up            : Bool := false
  timer         : Option Nat := none
  lastFrame     : Option Nat := none
  rx            : List Byte := []
  buffer        : List BufEntry := []
  sending       : Option TxFrame := none
  waiting       : List TxItem := []
  latched       : BitVec 12 := 0
  mask          : BitVec 12 := 0
  band          : BitVec 6 := 0
  statusPending : Bool := false
  deriving DecidableEq, Repr, Inhabited

/-! ### The device -/

/-- The part, its queue of waiting commands, and the model's count of free values taken. -/
structure State where
  pending     : List Instr
  freeCount   : Nat
  clock       : Nat
  mode        : Mode
  resetCause  : ResetCause
  loadResult  : LoadResult
  active      : TableSet
  working     : TableSet
  limits      : Tab 6 Limits
  store       : Store
  gauges      : Tab 7 Gauge
  pools       : Tab 6 Pool
  pass        : Pass
  forecast    : Option Forecast
  dams        : Tab 6 DamFlow
  reaches     : Tab 5 Reach
  claims      : List Claim
  generations : Tab 64 Nat
  intake      : List IntakeEntry
  leaving     : List Nat
  plans       : Tab 6 DamPlan
  channels    : Tab 32 Channel
  tripLines   : Tab 32 Bool
  links       : Tab 4 Link
  capture     : Option Capture
  deriving DecidableEq, Repr, Inhabited

/-- No command of the manual stops the part: no meaning ends in a fault. -/
inductive Fault where
  deriving DecidableEq, Repr

/-- Why a command is turned away. -/
inductive Refusal where
  /-- Raised by exec for a command without a meaning yet. Safe: nothing is claimed of it. -/
  | notModelled (mnemonic : String)
  /-- Raised by every meaning for operands no line and no frame field of the part can carry (Instr.wf). Safe: no such
  command reaches the part. -/
  | illFormed
  deriving DecidableEq, Repr

/-- The part right after power-on: LOADING with reset cause POWER_ON, clock 0, both table sets empty, every block in
its reset state (R13, R26, R48, R50, R74, R99, R115, R135, R145, R147, R149, R161, R166, R169, R172), a settings store
never written, every trip line released, and no command waiting. -/
def State.reset : State :=
  { pending := []
    freeCount := 0
    clock := 0
    mode := .loading
    resetCause := .powerOn
    loadResult := .loading
    active := emptySet
    working := emptySet
    limits := Vector.replicate 6 {}
    store := {}
    gauges := Vector.replicate 7 {}
    pools := Vector.replicate 6 {}
    pass := {}
    forecast := none
    dams := Vector.replicate 6 {}
    reaches := Vector.replicate 5 {}
    claims := []
    generations := Vector.replicate 64 0
    intake := []
    leaving := []
    plans := Vector.replicate 6 {}
    channels := Vector.replicate 32 {}
    tripLines := Vector.replicate 32 false
    links := Vector.replicate 4 {}
    capture := none }

end Sys2Proof.Machine
end

