-- ==== Sys2Proof/Machine/Ops.lean ====
section
/-! DEFINITION. Reading and writing the records of State by the manual's numbers, and the notions every block
asks of another: the configured dams, a channel's source, the claims of a slot, whether a pass is in flight. -/

namespace Sys2Proof.Machine

/-! ### Records by number -/

def State.gauge (s : State) (g : Nat) : Gauge := get1 s.gauges g
def State.setGauge (s : State) (g : Nat) (x : Gauge) : State := { s with gauges := put1 s.gauges g x }
def State.poolAt (s : State) (k : Nat) : Pool := get1 s.pools k
def State.setPool (s : State) (k : Nat) (x : Pool) : State := { s with pools := put1 s.pools k x }
def State.limitsAt (s : State) (k : Nat) : Limits := get1 s.limits k
def State.damAt (s : State) (k : Nat) : DamFlow := get1 s.dams k
def State.setDam (s : State) (k : Nat) (x : DamFlow) : State := { s with dams := put1 s.dams k x }
def State.reachAt (s : State) (k : Nat) : Reach := get1 s.reaches k
def State.setReach (s : State) (k : Nat) (x : Reach) : State := { s with reaches := put1 s.reaches k x }
def State.planAt (s : State) (k : Nat) : DamPlan := get1 s.plans k
def State.setPlan (s : State) (k : Nat) (x : DamPlan) : State := { s with plans := put1 s.plans k x }
def State.chan (s : State) (c : Nat) : Channel := get0 s.channels c
def State.setChan (s : State) (c : Nat) (x : Channel) : State := { s with channels := put0 s.channels c x }
def State.linkAt (s : State) (l : Nat) : Link := get1 s.links l
def State.setLink (s : State) (l : Nat) (x : Link) : State := { s with links := put1 s.links l x }
def State.tripLine (s : State) (c : Nat) : Bool := get0 s.tripLines c
def State.setTripLine (s : State) (c : Nat) (b : Bool) : State := { s with tripLines := put0 s.tripLines c b }

/-- The numbers of the four links. -/
def linkNumbers : List Nat := [1, 2, 3, 4]

/-- The gauge number of the tailwater gauge (R25). -/
def tailGauge : Nat := 7

/-! ### The active set -/

/-- The dam count N of the active set. -/
def State.damCount (s : State) : Nat := s.active.cascade.damCount

/-- The master class of a link, read from the active set (R147). -/
def State.linkClass (s : State) (l : Nat) : MasterClass := (s.active.link l).cls

/-- R10: is the link a STATION link of dam k? -/
def State.isStationOf (s : State) (l k : Nat) : Bool :=
  s.linkClass l == .station && (s.active.link l).dam == k

/-- The dam a configured channel belongs to. -/
def State.damOfChannel (s : State) (c : Nat) : Nat := (s.active.damOf c).getD 0

/-- Do the Gate Channel Controller, the Gauge Interface and the Balance Unit work in this mode (R22, R50, R115)? -/
def Mode.running : Mode → Bool
  | .loading => false
  | .configFault => false
  | .hold => true
  | .coordinate => true
  | .service => true

/-- R50: is a pass in flight? -/
def State.inFlight (s : State) : Bool := s.pass.state != .idle

/-! ### Timers -/

/-- Is a timer running with its expiry at or before the present second? -/
def State.due (s : State) (timer : Option Nat) : Bool :=
  match timer with
  | some e => e ≤ s.clock
  | none => false

/-! ### Channels -/

/-- R135: the control source, derived from the channel's state and its hold. -/
def Channel.source (c : Channel) : Source :=
  if c.state == .tripped then .trip
  else if c.holder.isSome then .localHold
  else .allocation

/-- Is the channel in READY or MOVING? -/
def Channel.inService (c : Channel) : Bool := c.state == .ready || c.state == .moving

/-- Under ALLOCATION source in READY or MOVING: an available unit (R93), an available spill channel (R123). -/
def Channel.available (c : Channel) : Bool := c.inService && c.source == .allocation

/-- R57: what a channel adds to the unmanaged flow of its dam. -/
def Channel.unmanaged (c : Channel) : Nat :=
  match c.state with
  | .tripped => 0
  | .offline => 0
  | .bringup => c.actual
  | .fault => c.actual
  | .ready => if c.holder.isSome then c.actual else 0
  | .moving => if c.holder.isSome then c.actual else 0

/-- R57: the unmanaged flow of dam k. -/
def State.unmanaged (s : State) (k : Nat) : Nat :=
  sumOver (s.active.damChannels k) fun c => (s.chan c).unmanaged

/-- R128: the sum of the actual flows of the channels of dam k, by the given table set. -/
def State.damFlow (s : State) (t : TableSet) (k : Nat) : Nat :=
  sumOver (t.damChannels k) fun c => (s.chan c).actual

/-! ### Claims -/

/-- R76: the slot of a handle and its generation. -/
def slotOf (handle : Nat) : Nat := handle % 64
def generationOf (handle : Nat) : Nat := handle / 64

/-- The claim in a slot. -/
def State.claimAt (s : State) (slot : Nat) : Option Claim := s.claims.find? fun c => slotOf c.handle == slot

/-- The claim a handle names while it is current (R76). -/
def State.claimOf (s : State) (handle : Nat) : Option Claim := s.claims.find? fun c => c.handle == handle

/-- The claims with one of them rewritten, in the same list order. -/
def State.updateClaim (s : State) (handle : Nat) (f : Claim → Claim) : State :=
  { s with claims := s.claims.map fun c => if c.handle == handle then f c else c }

/-- R74: a claim leaves the list and the claims behind it close up. -/
def State.dropClaim (s : State) (handle : Nat) : State :=
  { s with claims := s.claims.filter fun c => c.handle != handle }

/-- R75: does the claim's window, from its start, included, to its end, excluded, cover time t? -/
def Claim.activeAt (c : Claim) (t : Nat) : Bool :=
  c.start ≤ t && (match c.finish with | some e => t < e | none => true)

/-- Is the claim on this unit? -/
def Claim.onUnit (c : Claim) (u : Nat) : Bool := c.kind == .turbine u

/-- Is it a SPILL claim at dam k? -/
def Claim.spillAt (c : Claim) (k : Nat) : Bool := c.kind == .spill && c.dam == k

/-- R93: is the claim on a unit that is unavailable? -/
def State.unitUnavailable (s : State) (c : Claim) : Bool :=
  match c.kind with
  | .turbine u => !(s.chan u).available
  | .spill => false

/-- R99: the compensation sum of a plan. -/
def DamPlan.compensation (p : DamPlan) : Nat := sumOver p.entries (·.flow)

/-- The compensation sum of dam k as it stands. -/
def State.compensation (s : State) (k : Nat) : Nat := (s.planAt k).compensation

/-- R111: the sum of the held grants of the claims on a unit. -/
def State.heldSum (s : State) (u : Nat) : Nat :=
  sumOver (s.claims.filter fun c => c.onUnit u) fun c => c.held.getD 0

end Sys2Proof.Machine
end

