-- ==== Sys2Proof/Machine/Flags.lean ====
section
/-! DEFINITION. The Condition Unit and the transmitters: latched conditions and their scope (R160), band flags (R162), STATUS
frames (R164), the sending of replies and STATUS frames in the order they became ready (R149), the fault capture (R166). -/

namespace Sys2Proof.Machine

/-- Chapter 10: the twelve conditions, in the bit order of R158. -/
inductive Condition where
  | grantReduced | claimEnded | forcedSpillStarted | overtopRisk | downstreamLimitExceeded | channelFault
  | unitTrip | spillShortfall | gaugeLost | routingCoarsened | localOrphaned | modeChanged
  deriving DecidableEq, Repr

/-- R158: the bit of a condition in the latched-conditions field. -/
def Condition.bit : Condition → BitVec 12
  | .grantReduced => 1#12
  | .claimEnded => 2#12
  | .forcedSpillStarted => 4#12
  | .overtopRisk => 8#12
  | .downstreamLimitExceeded => 16#12
  | .channelFault => 32#12
  | .unitTrip => 64#12
  | .spillShortfall => 128#12
  | .gaugeLost => 256#12
  | .routingCoarsened => 512#12
  | .localOrphaned => 1024#12
  | .modeChanged => 2048#12

/-- R158: the band flag of pool k. -/
def bandBit (k : Nat) : BitVec 6 := 1#6 <<< (k - 1)

/-- R162: is the link in the scope of pool k, or of dam k (R160)? -/
def State.inScope (s : State) (k l : Nat) : Bool := s.linkClass l != .station || s.isStationOf l k

/-- R160: a condition scoped to dams and pools of the given numbers. -/
def State.inScopeAny (s : State) (ks : List Nat) (l : Nat) : Bool := ks.any fun k => s.inScope k l

/-! ### The transmitter -/

/-- What a STATUS frame on a link carries besides what the link holds (R164). -/
structure TxContext where
  mode      : Mode
  published : Bool
  scope     : BitVec 6
  deriving DecidableEq, Repr

/-- R164: the mode, the published indication and the pools in the link's scope, as they stand. -/
def State.txContext (s : State) (l : Nat) : TxContext :=
  { mode := s.mode
    published := s.forecast.isSome
    scope := [1, 2, 3, 4, 5, 6].foldl (fun b k => if s.inScope k l then b ||| bandBit k else b) 0#6 }

/-- The kind byte of a reply to a request of the catalogue (R151). -/
def replyKind (code : Nat) : Nat := code + 0x80

/-- The reply kind of READ_CONDITIONS. -/
def readConditionsKind : Nat := 0x8C

/-- R164: is a STATUS frame owed: LINK_UP, flag clear, an unmasked kind latched? -/
def Link.owesStatus (l : Link) : Bool := l.up && !l.statusPending && (l.latched &&& ~~~l.mask) != 0#12

/-- A STATUS frame is raised: the flag is set and the frame waits for the transmitter. -/
def Link.raiseStatus (l : Link) : Link := { l with statusPending := true, waiting := l.waiting ++ [.status] }

/-- R149: the first buffered request's reply, once formed, is ready to send. -/
def Link.readyFirst (l : Link) : Link :=
  match l.buffer with
  | e :: _ => if e.reply.isSome then { l with waiting := l.waiting ++ [.first] } else l
  | [] => l

/-- R149, R165: transmission of the first buffered request's reply begins: it leaves the buffer, a READ_CONDITIONS reply
clears the STATUS-pending flag, and the next request becomes first. DEDUCED (log entry 6): all this happens as the transmission
begins, and a STATUS frame then owed goes ahead of the next request's reply. -/
def Link.sendFirst (l : Link) : Link :=
  match l.buffer with
  | [] => l
  | e :: rest =>
    let l := { l with sending := e.reply.map (TxFrame.reply e.kind e.tag), buffer := rest }
    let l := if e.kind == readConditionsKind then { l with statusPending := false } else l
    let l := if e.kind == readConditionsKind && l.owesStatus then l.raiseStatus else l
    l.readyFirst

/-- R149, R164: an idle transmitter begins the frame that has waited longest; the contents of a STATUS frame are taken now. -/
def Link.startTx (x : TxContext) (l : Link) : Link :=
  match l.sending, l.waiting with
  | none, .status :: rest =>
    { l with waiting := rest, sending := some (.status x.mode x.published l.latched (l.band &&& x.scope)) }
  | none, .busy kind tag :: rest =>
    { l with waiting := rest, sending := some (.reply kind tag (.status .busy)) }
  | none, .first :: rest => Link.sendFirst { l with waiting := rest }
  | _, _ => l

/-- R149: a frame of the link is ready to send. -/
def Link.ready (x : TxContext) (item : TxItem) (l : Link) : Link :=
  Link.startTx x { l with waiting := l.waiting ++ [item] }

/-- R164: a STATUS frame is sent if one is owed. -/
def Link.checkStatus (x : TxContext) (l : Link) : Link :=
  if l.owesStatus then Link.startTx x l.raiseStatus else l

/-! ### Conditions -/

/-- R160, R164: a kind latches on one link, and a STATUS frame is sent if it is unmasked, the link is LINK_UP and its flag
is clear. -/
def Link.latch (x : TxContext) (c : Condition) (l : Link) : Link :=
  let l' := { l with latched := l.latched ||| c.bit }
  if l.up && !l.statusPending && (c.bit &&& l.mask) == 0#12 then Link.startTx x l'.raiseStatus else l'

/-- R160: a condition is raised on every link of its scope. -/
def State.raise (s : State) (c : Condition) (scope : Nat → Bool) : State :=
  { s with links := gen1 fun l =>
      if scope l then Link.latch (s.txContext l) c (s.linkAt l) else s.linkAt l }

/-- R160: an owner-scoped condition. -/
def State.raiseOwner (s : State) (c : Condition) (owner : Nat) : State := s.raise c fun l => l == owner

/-- R160: a condition scoped to dam k and pool k. -/
def State.raiseDam (s : State) (c : Condition) (k : Nat) : State := s.raise c fun l => s.inScope k l

/-- R160: MODE_CHANGED latches on every link. -/
def State.raiseAll (s : State) (c : Condition) : State := s.raise c fun _ => true

/-- R162: an out-of-band notice for pool k sets its flag on every link in its scope. -/
def State.outOfBand (s : State) (k : Nat) : State :=
  { s with links := gen1 fun l =>
      if s.inScope k l then { s.linkAt l with band := (s.linkAt l).band ||| bandBit k } else s.linkAt l }

/-! ### Fault capture -/

/-- R166: a fault offered to the capture fills an empty one, and raises the later-fault count of a full one. -/
def offerFault (fault : Capture) : Option Capture → Capture
  | none => { fault with later := 0 }
  | some c => { c with later := min 255 (c.later + 1) }

/-- R166: a fault of the present second is offered to the capture. -/
def State.offer (s : State) (kind : CaptureKind) (subject : Nat) (setpoint measured : Option Nat) : State :=
  let fault : Capture :=
    { kind := kind, subject := subject, time := s.clock, setpoint := setpoint, measured := measured, later := 0 }
  { s with capture := some (offerFault fault s.capture) }

end Sys2Proof.Machine
end

