-- ==== Sys2Proof/Machine/Storage.lean ====
section
/-! DEFINITION. Storage, level and head (chapter 2), and the limit storages (R17, R31). -/

namespace Sys2Proof.Machine

/-- R2: linear interpolation between two table points, the lower one first. The span is positive in a valid table, so the
quotient is the floor. -/
def interpolate (x0 y0 x1 y1 x : Nat) : Nat :=
  ((y0 : Int) + ((y1 : Int) - (y0 : Int)) * ((x : Int) - (x0 : Int)) / ((x1 : Int) - (x0 : Int))).toNat

/-- R27, R28, R120: a table read at x: the first value at or below the first point, the last value at or above the last
point, interpolation in the segment that holds x otherwise. -/
def readTable : List (Nat × Nat) → Nat → Nat
  | [], _ => 0
  | [p], _ => p.2
  | p :: q :: rest, x =>
    if x ≤ p.1 then p.2
    else if x < q.1 then interpolate p.1 p.2 q.1 q.2 x
    else readTable (q :: rest) x

/-- R27: the storage at a level. -/
def PoolRec.storageAt (p : PoolRec) (level : Nat) : Nat := readTable p.points.toList level

/-- R28: the level at a storage. -/
def PoolRec.levelAt (p : PoolRec) (storage : Nat) : Nat :=
  readTable (p.points.toList.map fun q => (q.2, q.1)) storage

/-- The lowest and highest storage of a pool's table, S0 and S8. -/
def PoolRec.lowest (p : PoolRec) : Nat := (get0 p.points 0).2
def PoolRec.highest (p : PoolRec) : Nat := (get0 p.points 8).2

/-- R28: the assumed level and the assumed storage. -/
def PoolRec.assumedLevel (p : PoolRec) : Nat := p.floor + (p.ceiling - p.floor) / 2
def PoolRec.assumedStorage (p : PoolRec) : Nat := p.storageAt p.assumedLevel

/-- R29: a signed storage clamped to S0..S8. -/
def PoolRec.clampStorage (p : PoolRec) (x : Int) : Nat :=
  (max (p.lowest : Int) (min (p.highest : Int) x)).toNat

/-- R17: the limit storages of a pool, from its storage table. -/
def PoolRec.limits (p : PoolRec) : Limits :=
  { floor := p.storageAt p.floor, ceiling := p.storageAt p.ceiling, flood := p.storageAt p.flood }

/-- R17: the limit storages of every configured pool of a set. -/
def TableSet.limits (t : TableSet) : Tab 6 Limits :=
  gen1 fun k => if t.hasDam k then (t.pool k).limits else {}

/-- R31: is the gauge of pool k LOST, so that its reserve applies? -/
def State.reserveApplies (s : State) (k : Nat) : Bool := (s.gauge k).state == .lost

/-- R31: the limit storages as every use of them reads them. -/
def State.floorLimit (s : State) (k : Nat) : Int :=
  (s.limitsAt k).floor + (if s.reserveApplies k then ((s.active.pool k).reserve : Int) else 0)
def State.ceilingLimit (s : State) (k : Nat) : Int :=
  (s.limitsAt k).ceiling - (if s.reserveApplies k then ((s.active.pool k).reserve : Int) else 0)
def State.floodLimit (s : State) (k : Nat) : Int :=
  (s.limitsAt k).flood - (if s.reserveApplies k then ((s.active.pool k).reserve : Int) else 0)

/-- R33: the level of pool k for head. -/
def State.poolLevel (s : State) (k : Nat) : Nat :=
  let r := s.active.pool k
  match (s.gauge k).state with
  | .good => (s.gauge k).accepted.getD r.assumedLevel
  | .lost => match (s.poolAt k).basis with
    | some b => r.levelAt b
    | none => r.assumedLevel
  | .await => r.assumedLevel

/-- R32: the tail level of the last dam. -/
def State.riverLevel (s : State) : Nat :=
  if s.active.cascade.tailPresent then
    (s.gauge tailGauge).accepted.getD (s.active.dam s.damCount).tailFixed
  else (s.active.dam s.damCount).tailFixed

/-- R32: the tail level of dam k. -/
def State.tailLevel (s : State) (k : Nat) : Nat :=
  if k == s.damCount then s.riverLevel else s.poolLevel (k + 1)

/-- R33: the head of dam k; a negative difference gives 0. -/
def State.head (s : State) (k : Nat) : Nat := s.poolLevel k - s.tailLevel k

/-- The heads of the configured dams. -/
def State.heads (s : State) : Tab 6 Nat := gen1 fun k => if s.active.hasDam k then s.head k else 0

/-- R34: the pool band of Pk is evaluated on its storage basis with the unadjusted limits; out of band gives a notice. -/
def State.evaluateBand (s : State) (k : Nat) : State :=
  match (s.poolAt k).basis with
  | some b =>
    if b < (s.limitsAt k).floor || (s.limitsAt k).ceiling < b then s.outOfBand k else s
  | none => s

end Sys2Proof.Machine
end

