-- ==== Sys2Proof/Machine/Routing.lean ====
section
/-! DEFINITION. The Routing Unit (chapter 3). -/

namespace Sys2Proof.Machine

/-- R38: the arrival of a step, formed from its departure with the travel time in force. -/
def RoutingStep.arrival (p : RoutingStep) (travel : Nat) : Nat := p.departure + travel

/-- R44: the inflow rate a queue answers for time t: the flow of the latest step arrived by t, else of the oldest. -/
def rateAt (travel : Nat) : List RoutingStep → Nat → Nat
  | [], _ => 0
  | [p], _ => p.flow
  | p :: q :: rest, t => if q.arrival travel ≤ t then rateAt travel (q :: rest) t else p.flow

/-- R45: the inflow volume from a, included, to e, excluded, split at every step arrival inside. -/
def volumeBetween (travel : Nat) : List RoutingStep → Nat → Nat → Nat
  | [], _, _ => 0
  | [p], a, e => p.flow * (e - a)
  | p :: q :: rest, a, e =>
    p.flow * (min e (q.arrival travel) - a) + volumeBetween travel (q :: rest) (max a (q.arrival travel)) e

/-- R41: the steps whose successor has arrived by the cut are removed, oldest first. -/
def dropArrived (travel cut : Nat) : List RoutingStep → List RoutingStep
  | p :: q :: rest => if q.arrival travel ≤ cut then dropArrived travel cut (q :: rest) else p :: q :: rest
  | l => l

/-- R41: the water that arrived up to a new cut is counted, on the queue as it stands. -/
def Reach.countTo (r : Reach) (travel cut : Nat) : Reach :=
  { r with arrived := r.arrived + volumeBetween travel r.queue r.cut cut, cut := cut }

/-- R41, R40: retirement to a cut: the arrived water is counted, steps are removed, and a removal that leaves 24 steps or
fewer clears the coarsened flag. -/
def Reach.retire (r : Reach) (travel cut : Nat) : Reach :=
  let queue := dropArrived travel cut r.queue
  { r.countTo travel cut with
    queue := queue
    coarsened := r.coarsened && !(queue.length < r.queue.length && queue.length ≤ Config.clearSteps) }

/-- The newest step of a queue with its flow replaced. -/
def setNewestFlow (flow : Nat) : List RoutingStep → List RoutingStep
  | [] => []
  | [p] => [{ p with flow := flow }]
  | p :: q :: rest => p :: setNewestFlow flow (q :: rest)

/-- R39 steps 2 to 5 and R40, on a seeded queue already retired. -/
def Reach.place (r : Reach) (deadband now flow : Nat) : Reach :=
  match r.queue.getLast? with
  | none => r
  | some newest =>
    if flow == newest.flow || absDiff flow newest.flow < deadband then r
    else if newest.departure == now then
      let flow' := if r.queue.length == Config.queueSteps then max newest.flow flow else flow
      { r with queue := setNewestFlow flow' r.queue }
    else if r.queue.length < Config.queueSteps then
      { r with queue := r.queue ++ [{ flow := flow, departure := now }] }
    else { r with queue := setNewestFlow (max newest.flow flow) r.queue, coarsened := true }

/-- R41: the cut of the retirement before a push: the basis time of a pass that has taken its bases and is in flight, else
the present time. -/
def State.pushCut (s : State) : Nat :=
  if s.pass.state == .running then s.pass.forecast.start else s.clock

/-- R41, R64: does the retirement before a push remove steps? Not once a RUNNING pass has retired the queues at its stage 2. DEDUCED
(log entry 29): between stages 1 and 2 it does. -/
def State.pushRemoves (s : State) : Bool := !(s.pass.state == .running && s.pass.stage != .routing)

/-- R39 step 1, R41: reach k made ready for a push. -/
def State.readiedReach (s : State) (k : Nat) : Reach :=
  let travel := (s.active.reach k).travel
  if s.pushRemoves then (s.reachAt k).retire travel s.pushCut else (s.reachAt k).countTo travel s.pushCut

/-- R39, R40: a step push offered to reach k; an unseeded queue takes none. ROUTING_COARSENED latches when a coalescing sets the flag
from clear: the placing alone can set it, so it is compared with that of the reach made ready. -/
def State.push (s : State) (k flow : Nat) : State :=
  let ready := s.readiedReach k
  let new := if (s.reachAt k).queue.isEmpty then s.reachAt k else ready.place (s.active.reach k).deadband s.clock flow
  let s' := s.setReach k new
  if new.coarsened && !ready.coarsened then s'.raise .routingCoarsened (s.inScopeAny [k, k + 1]) else s'

/-- R37: the accumulator of a dam brought up to a time. -/
def DamFlow.bringUp (d : DamFlow) (t : Nat) : DamFlow :=
  { d with volume := d.volume + d.outflow * (t - d.mark), mark := t }

/-- R36: an outflow report for dam k. -/
def State.outflowReport (s : State) (k flow : Nat) : State :=
  let s' := s.setDam k { (s.damAt k).bringUp s.clock with outflow := flow }
  if s.active.hasReach k then s'.push k flow else s'

/-- R37: the pass reading of a dam's accumulator: the volume handed over. -/
def DamFlow.reading (d : DamFlow) (t : Nat) : Nat := (d.bringUp t).volume

/-- R42: the arrived volume of a seeded reach handed over at the basis time; an unseeded one hands over 0. -/
def Reach.reading (r : Reach) (travel t : Nat) : Nat :=
  if r.queue.isEmpty then 0 else r.arrived + volumeBetween travel r.queue r.cut t

/-- R42: the reach after the pass reading. -/
def Reach.afterReading (r : Reach) (t : Nat) : Reach :=
  if r.queue.isEmpty then r else { r with arrived := 0, cut := t }

/-- R43: an unseeded reach seeded with the present outflow of its dam. -/
def Reach.seeded (travel t outflow : Nat) : Reach :=
  { queue := [{ flow := outflow, departure := t - travel }], coarsened := false, arrived := 0, cut := t }

/-- R64: stage 2 for one reach: a seeded queue is retired to t0, an unseeded one is seeded. -/
def Reach.upkeep (r : Reach) (travel t outflow : Nat) : Reach :=
  if r.queue.isEmpty then Reach.seeded travel t outflow else r.retire travel t

end Sys2Proof.Machine
end

