-- ==== Sys2Proof/Machine/Rating.lean ====
section
/-! DEFINITION. Rating arithmetic (R120, R121) and the spill distribution (R123). -/

namespace Sys2Proof.Machine

/-- R120: the reference flow at an opening. -/
def ChanRec.reference (r : ChanRec) (opening : Nat) : Nat :=
  if opening == 1000 then get0 r.rating 8
  else
    let i := opening / 125
    get0 r.rating i + (get0 r.rating (i + 1) - get0 r.rating i) * (opening - 125 * i) / 125

/-- R120: the head factor. -/
def ChanRec.factor (r : ChanRec) (head : Nat) : Nat := readTable r.heads.toList head

/-- R120: the flow at an opening and a head. -/
def ChanRec.flow (r : ChanRec) (opening head : Nat) : Nat := r.reference opening * r.factor head / 1024

/-- R120: the capacity at a head. -/
def ChanRec.capacity (r : ChanRec) (head : Nat) : Nat := r.flow 1000 head

/-- R121 case 3: the first segment whose end reaches the reference flow sought, and the opening in it. -/
def segmentOpening (target : Nat) : Nat → List Nat → Nat
  | i, a :: b :: rest =>
    if a < target && target ≤ b then 125 * i + ceilDiv ((target - a) * 125) (b - a)
    else segmentOpening target (i + 1) (b :: rest)
  | _, _ => 1000

/-- R121: the opening for a flow at a head, and the target-shortfall mark. -/
def ChanRec.openingFor (r : ChanRec) (flow head : Nat) : Nat × Bool :=
  if flow == 0 then (0, false)
  else if r.factor head == 0 || r.capacity head < flow then (1000, true)
  else (segmentOpening (ceilDiv (flow * 1024) (r.factor head)) 0 r.rating.toList, false)

/-- The head of the dam of a configured channel. -/
def State.chanHead (s : State) (c : Nat) : Nat := s.head (s.damOfChannel c)

/-- The capacity of a channel at the present head of its dam. -/
def State.capacity (s : State) (c : Nat) : Nat := (s.active.channel c).capacity (s.chanHead c)

/-- R123: the available spill channels of dam k, ascending. -/
def State.spillChannels (s : State) (k : Nat) : List Nat :=
  (s.active.damChannels k).filter fun c => (s.active.channel c).kind == .spill && (s.chan c).available

/-- The sum of the capacities of the available spill channels of dam k (R85, R101, R108). -/
def State.spillCapacity (s : State) (k : Nat) : Nat := sumOver (s.spillChannels k) s.capacity

/-- A channel in a spill distribution: its number, its capacity, its share, and whether it is capped. -/
structure Share where
  channel  : Nat
  capacity : Nat
  share    : Nat
  capped   : Bool
  deriving DecidableEq, Repr

/-- R123 step 2: the amount divided among the uncapped channels, the first `extra` of them taking 1 FU more. -/
def addShares (each : Nat) : Nat → List Share → List Share
  | _, [] => []
  | extra, x :: rest =>
    if x.capped then x :: addShares each extra rest
    else { x with share := x.share + each + (if extra == 0 then 0 else 1) } :: addShares each (extra - 1) rest

/-- R123 step 3: the surplus over the capacities of the channels that are not yet capped. -/
def surplus (l : List Share) : Nat :=
  sumOver (l.filter fun x => !x.capped) fun x => x.share - x.capacity

/-- R123 step 3: each uncapped channel over its capacity is capped. -/
def capShares (l : List Share) : List Share :=
  l.map fun x => if !x.capped && x.capacity < x.share then { x with share := x.capacity, capped := true } else x

/-- R123: the rounds of the distribution; the flag says it ended in shortfall. Each round caps a channel or ends, so one
round more than there are channels is enough. -/
def distributeRounds : Nat → Nat → List Share → List Share × Bool
  | 0, _, l => (l, true)
  | rounds + 1, amount, l =>
    let n := (l.filter fun x => !x.capped).length
    if n == 0 then (l, amount != 0)
    else
      let l' := addShares (amount / n) (amount % n) l
      let left := surplus l'
      if left == 0 then (l', false) else distributeRounds rounds left (capShares l')

/-- R123: an amount shared among channels of the given capacities. -/
def distribute (amount : Nat) (channels : List (Nat × Nat)) : List Share × Bool :=
  distributeRounds (channels.length + 1) amount
    (channels.map fun c => { channel := c.1, capacity := c.2, share := 0, capped := false })

end Sys2Proof.Machine
end

