-- ==== Sys2Proof/Machine/Channels.lean ====
section
/-! DEFINITION. The Gate Channel Controller's shared operations: actual flow and its reports (R127, R128), targets (R122 to
R124), head changes (R33), commands (R126). -/

namespace Sys2Proof.Machine

/-! ### Actual flow -/

/-- R128: a channel's actual flow, with the outflow report of its dam when the flow changes. The dam is that of the given
table set, whose ranges also give the sum reported. -/
def State.setActualIn (s : State) (t : TableSet) (c flow : Nat) : State :=
  if (s.chan c).actual == flow then s
  else
    let s' := s.setChan c { s.chan c with actual := flow }
    match t.damOf c with
    | some k => if s.active.hasDam k then s'.outflowReport k (s'.damFlow t k) else s'
    | none => s'

/-- R128: a configured channel's actual flow. -/
def State.setActual (s : State) (c flow : Nat) : State := s.setActualIn s.active c flow

/-- R127: the flow formed from the measured position at the present head; 0 without one. -/
def State.formedFlow (s : State) (c : Nat) : Nat :=
  match (s.chan c).measured with
  | some p => (s.active.channel c).flow p (s.chanHead c)
  | none => 0

/-- R127: a channel's actual flow formed again, except in FAULT, where it is held, and without a measured position. DEDUCED (log
entry 31): the bring-up after a CLEAR_FAULT is no exception, though R131 has the held flow stay until its first report. -/
def State.reformFlow (s : State) (c : Nat) : State :=
  if (s.chan c).measured.isSome && (s.chan c).state != .fault then s.setActual c (s.formedFlow c) else s

/-- R128: the flows of dam k formed again in ascending channel order. -/
def State.reformDam (s : State) (k : Nat) : State := (s.active.damChannels k).foldl State.reformFlow s

/-! ### Targets -/

/-- R122: a unit's target flow: the granted flows of its claims whose windows cover the present second. -/
def State.unitTarget (s : State) (u : Nat) : Nat :=
  sumOver (s.claims.filter fun c => c.onUnit u && c.activeAt s.clock) (·.grant)

/-- R123: the spill target of dam k. -/
def State.spillTarget (s : State) (k : Nat) : Nat :=
  sumOver (s.claims.filter fun c => c.spillAt k && c.activeAt s.clock) (·.grant) +
    (s.planAt k).forced + s.compensation k

/-- R123: the spill target of dam k shared among its available spill channels. -/
def State.spillShares (s : State) (k : Nat) : List Share × Bool :=
  distribute (s.spillTarget k) ((s.spillChannels k).map fun c => (c, s.capacity c))

/-- R122: after a recompute a channel in READY whose target differs from its setpoint is MOVING, and one in MOVING whose
target equals it is READY. -/
def Channel.settle (c : Channel) : Channel :=
  if c.inService then { c with state := if c.target == c.setpoint then .ready else .moving } else c

/-- A target with its flow and shortfall mark. -/
def Channel.aim (c : Channel) (opening flow : Nat) (short : Bool) : Channel :=
  { c with target := some opening, targetFlow := some flow, shortfall := short }

/-- R136: a held channel whose target stands has the flow of its local opening as target flow and no shortfall mark. DEDUCED (log
entry 13): with no hold both stay as they are. -/
def Channel.localAim (c : Channel) (flow : Nat) : Channel :=
  { c with
    targetFlow := if c.holder.isSome then some flow else c.targetFlow
    shortfall := if c.holder.isSome then false else c.shortfall }

/-- R122, R136: the target of a channel by its state and source; an available SPILL channel takes its share (R123), or its
whole capacity at opening 1000 in a shortfall (R124). DEDUCED (log entry 13): a TRIPPED channel has target flow 0 and no mark, an
OFFLINE one no target flow. -/
def State.retarget (s : State) (shares : List Share × Bool) (c : Nat) (x : Channel) : Channel :=
  let rec_ := s.active.channel c
  let head := s.chanHead c
  match x.state with
  | .tripped => x.aim 0 0 false
  | .offline => { x with target := none, targetFlow := none }
  | .bringup | .fault => x.localAim (rec_.flow (x.localOpening.getD 0) head)
  | .ready | .moving =>
    match x.holder with
    | some _ =>
      let opening := x.localOpening.getD 0
      (x.aim opening (rec_.flow opening head) false).settle
    | none =>
      match rec_.kind with
      | .turbine =>
        let o := rec_.openingFor (s.unitTarget c) head
        (x.aim o.1 (s.unitTarget c) o.2).settle
      | .spill =>
        let share := ((shares.1.find? fun y => y.channel == c).map (·.share)).getD 0
        let o := if shares.2 then (1000, false) else rec_.openingFor share head
        (x.aim o.1 (if shares.2 then rec_.capacity head else share) o.2).settle

/-- R122: the targets of dam k are recomputed; a shortfall of its spill distribution latches SPILL_SHORTFALL (R124). -/
def State.recompute (s : State) (k : Nat) : State :=
  let shares := s.spillShares k
  let channels := gen0 fun c => if s.active.inDam k c then s.retarget shares c (s.chan c) else s.chan c
  let s' := { s with channels := channels }
  if s.active.hasDam k && shares.2 then s'.raiseDam .spillShortfall k else s'

/-- R122: the targets of the dam a channel belongs to. -/
def State.recomputeFor (s : State) (c : Nat) : State := s.recompute (s.damOfChannel c)

/-! ### Heads -/

/-- R33: the level notices of an event: every dam whose head differs from the one given forms the flows of its channels
again (R127) and recomputes its targets (R122). -/
def State.levelNotice (s : State) (before : Tab 6 Nat) : State :=
  s.active.damNumbers.foldl (fun s k => if get1 before k == s.head k then s else (s.reformDam k).recompute k) s

/-! ### Commands and handover -/

/-- R126: an opening command is sent to the channel's actuator. -/
def Channel.send (c : Channel) (opening : Nat) : Channel :=
  { c with command := some opening, commandCount := c.commandCount + 1 }

/-- The setpoint takes a new value and a command carries it. -/
def Channel.drive (c : Channel) (opening : Nat) : Channel :=
  Channel.send { c with setpoint := some opening } opening

/-- A hold ends: no holder, no local opening, no orphan mark (R140, R142). -/
def Channel.endHold (c : Channel) : Channel :=
  { c with holder := none, localOpening := none, orphan := false }

/-- R136 steps 3 and 4 after a change of source: the report to the Release Allocator is the derived unmanaged flow of R57,
and the targets of the dam are recomputed. -/
def State.handover (s : State) (c : Nat) (x : Channel) : State := (s.setChan c x).recomputeFor c

/-- R125: the setpoint after one ramp step toward the target. -/
def rampTo (setpoint target openLimit closeLimit : Nat) : Nat :=
  if setpoint < target then setpoint + min (target - setpoint) openLimit
  else setpoint - min (setpoint - target) closeLimit

/-- R118: the range of an acceptable position, and its clamp. -/
def positionOk (p : Int) : Bool := -20 ≤ p && p ≤ 1020
def clampPosition (p : Int) : Nat := (max 0 (min 1000 p)).toNat

end Sys2Proof.Machine
end

