-- ==== Sys2Proof/Machine/Balance.lean ====
section
/-! DEFINITION. The Balance Unit's forecasts (chapter 4): planned outflow, inflow and forecast storage (R54 to R56), and the
adjustments of a forecast in place (R60 to R62). -/

namespace Sys2Proof.Machine

def Forecast.pool (f : Forecast) (k : Nat) : PoolForecast := get1 f.pools k
def PoolForecast.F (p : PoolForecast) (b : Nat) : Int := get1 p.storage b
def PoolForecast.P (p : PoolForecast) (b : Nat) : Int := get1 p.peak b

/-- The end of bin b; bin 0 ends at the pass start. -/
def Forecast.binEnd (f : Forecast) (b : Nat) : Nat := f.start + b * f.bin

/-- The end of the horizon, t_12. -/
def Forecast.horizon (f : Forecast) : Nat := f.binEnd 12

/-- A claim's end in a forecast: its own, or t_12 when it is open-ended. -/
def Claim.endIn (c : Claim) (f : Forecast) : Nat := c.finish.getD f.horizon

/-! ### Planned outflow -/

/-- A release in planned outflow: a flow over the seconds from a start, included, to an end, excluded. -/
structure Release where
  flow   : Nat
  start  : Nat
  finish : Nat
  deriving DecidableEq, Repr

/-- The planned outflow of a dam (R54): its claim part and its constant part. -/
structure Plan where
  constant : Nat
  releases : List Release
  deriving DecidableEq, Repr

/-- The seconds of [x, y) that a release covers. -/
def Release.overlap (r : Release) (x y : Nat) : Nat := min r.finish y - max r.start x

/-- R55: planned outflow summed over the seconds from x, included, to y, excluded. -/
def Plan.volume (p : Plan) (x y : Nat) : Nat :=
  p.constant * (y - x) + sumOver p.releases fun r => r.flow * r.overlap x y

/-- R54: planned outflow at one second. -/
def Plan.at (p : Plan) (t : Nat) : Nat :=
  p.constant + sumOver p.releases fun r => if r.start ≤ t && t < r.finish then r.flow else 0

/-- R56: the largest planned outflow at any second of [x, y). It only rises where a release starts. -/
def Plan.peak (p : Plan) (x y : Nat) : Nat :=
  listMax ((x :: ((p.releases.map (·.start)).filter fun t => x < t && t < y)).map p.at)

/-- R54: the planned outflow of dam k in a pass: its working grants, and the constant part with the given forced spill. -/
def State.planOf (s : State) (k forced : Nat) : Plan :=
  let f := s.pass.forecast
  let w := get1 s.pass.dams k
  { constant := forced + w.compensation + w.unmanaged
    releases := (s.claims.filter fun c => c.dam == k && c.workGrant != 0).map fun c =>
      { flow := c.workGrant, start := c.start, finish := c.workEnd.getD f.horizon } }

/-- R54: the planned outflow of dam k with its working forced spill. -/
def State.plan (s : State) (k : Nat) : Plan := s.planOf k (get1 s.pass.dams k).forced

/-- R55: the routed inflow into pool k over [x, y): the Routing Unit's answer before the known horizon of reach k-1, and the
planned outflow of dam k-1 shifted by its travel time from there. -/
def State.inflow (s : State) (k x y : Nat) : Nat :=
  match k with
  | 0 => 0
  | 1 => 0
  | j + 2 =>
    let travel := (s.active.reach (j + 1)).travel
    let known := s.pass.forecast.start + travel
    volumeBetween travel (s.reachAt (j + 1)).queue x (min y known) +
      (s.plan (j + 1)).volume (max x known - travel) (y - travel)

/-- R56: what bin b adds to the storage of pool k: inflow and lateral volume less outflow. -/
def State.binChange (s : State) (p : Plan) (k b : Nat) : Int :=
  let f := s.pass.forecast
  let x := f.binEnd (b - 1)
  let y := f.binEnd b
  (s.inflow k x y : Int) + (get1 (get1 s.pass.rates k) b * f.bin : Nat) - (p.volume x y : Int)

/-- R56: the storage S_k that the pass took at stage 1. -/
def State.passStorage (s : State) (k : Nat) : Nat := ((s.poolAt k).passBasis.map (·.storage)).getD 0

/-- R56: the forecast storages of pool k, bin by bin, with the given planned outflow. -/
def State.storages (s : State) (p : Plan) (k : Nat) : List Int :=
  (binNumbers.foldl (fun (acc : Int × List Int) b =>
      let v := acc.1 + s.binChange p k b
      (v, acc.2 ++ [v])) ((s.passStorage k : Int), [])).2

/-- The peak rates of pool k's dam, with the given planned outflow (R56). -/
def State.peaks (s : State) (p : Plan) : Bins Int :=
  let f := s.pass.forecast
  gen1 fun b => (p.peak (f.binEnd (b - 1)) (f.binEnd b) : Int)

/-- R56: F and P of pool k with the given planned outflow. -/
def State.formPool (s : State) (p : Plan) (k : Nat) : PoolForecast :=
  let l := s.storages p k
  { storage := gen0 fun i => l.getD i 0, peak := s.peaks p }

/-- The pass with one pool of its forecast replaced. -/
def State.setPassPool (s : State) (k : Nat) (x : PoolForecast) : State :=
  { s with pass := { s.pass with forecast := { s.pass.forecast with pools := put1 s.pass.forecast.pools k x } } }

/-- R56: F and P of pool k formed again from the working values. -/
def State.reformPool (s : State) (k : Nat) : State := s.setPassPool k (s.formPool (s.plan k) k)

/-! ### Exposure and the adjustments of a forecast -/

/-- R60, R83: the seconds up to t of a release from u to e, delayed by d. -/
def exposure (u e d t : Nat) : Nat := min (e + d) t - (u + d)

/-- The F of every pool changed by a function of its number and the bin. -/
def Forecast.change (f : Forecast) (dF dP : Nat → Nat → Int) : Forecast :=
  { f with pools := gen1 fun k =>
      { storage := gen1 fun b => (f.pool k).F b + dF k b
        peak := gen1 fun b => (f.pool k).P b + dP k b } }

/-- R60: the change of F when a release of g at dam k from u to e is added: pool k loses it, and pool k+1, if there is
one, gains it after the travel time. -/
def Forecast.releaseF (f : Forecast) (n travel k g u e : Nat) (j b : Nat) : Int :=
  let t := f.binEnd b
  if j == k then -((g * exposure u e 0 t : Nat) : Int)
  else if j == k + 1 && k < n then ((g * exposure u e travel t : Nat) : Int)
  else 0

/-- R60: a release of g FU at dam k from u, included, to e, excluded, is added: the peak rises in each bin it overlaps. -/
def Forecast.addRelease (f : Forecast) (n travel k g u e : Nat) : Forecast :=
  if e ≤ u then f
  else f.change (f.releaseF n travel k g u e) fun j b =>
    if j == k && u < f.binEnd b && f.binEnd (b - 1) < e then (g : Int) else 0

/-- R60: a release is removed: the peak falls only in each bin that begins at or after u and before e. -/
def Forecast.removeRelease (f : Forecast) (n travel k g u e : Nat) : Forecast :=
  if e ≤ u then f
  else f.change (fun j b => -(f.releaseF n travel k g u e j b)) fun j b =>
    if j == k && u ≤ f.binEnd (b - 1) && f.binEnd (b - 1) < e then -(g : Int) else 0

/-- R61: a change of c FU in the constant part of dam k from time u onward. -/
def Forecast.changeConstant (f : Forecast) (n travel k : Nat) (c : Int) (u : Nat) : Forecast :=
  f.change
    (fun j b =>
      if j == k then -(c * (f.binEnd b - u : Nat))
      else if j == k + 1 && k < n then c * (f.binEnd b - (u + travel) : Nat)
      else 0)
    (fun j b =>
      if j == k && ((0 ≤ c && u < f.binEnd b) || (c < 0 && u ≤ f.binEnd (b - 1))) then c else 0)

/-- R62, R71: the published forecast adjusted in place; while it is unpublished nothing is. -/
def State.adjust (s : State) (g : Forecast → Forecast) : State := { s with forecast := s.forecast.map g }

/-- The travel time of reach k in the active set. -/
def State.travel (s : State) (k : Nat) : Nat := (s.active.reach k).travel

/-- R60, R62: a grant of a claim added to the published forecast over its window from u to e. -/
def State.addGrant (s : State) (c : Claim) (g u : Nat) (e : Forecast → Nat) : State :=
  s.adjust fun f => f.addRelease s.damCount (s.travel c.dam) c.dam g (max c.start u) (e f)

/-- R60, R62: a grant of a claim removed from the published forecast over its window from u to e. -/
def State.removeGrant (s : State) (c : Claim) (g u : Nat) (e : Forecast → Nat) : State :=
  s.adjust fun f => f.removeRelease s.damCount (s.travel c.dam) c.dam g (max c.start u) (e f)

/-- R61, R62: a change of the compensation sum of dam k from the present second. -/
def State.adjustConstant (s : State) (k : Nat) (c : Int) : State :=
  if c == 0 then s else s.adjust fun f => f.changeConstant s.damCount (s.travel k) k c s.clock

end Sys2Proof.Machine
end

