-- ==== Sys2Proof/Machine/Pass.lean ====
section
/-! DEFINITION. Starting a pass, taking its bases, and early-pass requests (R29, R42, R52, R53, R59, R63). -/

namespace Sys2Proof.Machine

/-- R59: the lateral rate of a bin whose first second is x, from the published forecast and the rates in force. -/
def carriedRate (f : Forecast) (rates : Bins Nat) (x : Nat) : Nat :=
  if x < f.start then get1 rates 1
  else if f.horizon ≤ x then get1 rates 12
  else get1 rates ((x - f.start) / f.bin + 1)

/-- R59: the twelve lateral rates of a pass with start t0 and bin length B for one pool. -/
def Pool.passRates (p : Pool) (published : Option Forecast) (t0 bin : Nat) : Bins Nat :=
  match p.declared, published with
  | some d, _ => d
  | none, some f => gen1 fun j => carriedRate f p.rates (t0 + (j - 1) * bin)
  | none, none => Vector.replicate 12 0

/-- R29: the lateral inflow volume from the previous basis time to t0: each of the previous pass's rates over the seconds
lying in its bin, the last one also beyond it. -/
def lateralVolume (rates : Bins Nat) (p : PassBasis) (t0 : Nat) : Nat :=
  sumOver binNumbers fun j =>
    get1 rates j * ((if j == 12 then t0 else min t0 (p.time + j * p.bin)) - (p.time + (j - 1) * p.bin))

/-- R29, R42: the routed inflow volume handed over for pool k at t0. -/
def State.volumeIn (s : State) (k t0 : Nat) : Nat :=
  match k with
  | j + 2 => (s.reachAt (j + 1)).reading (s.travel (j + 1)) t0
  | _ => 0

/-- R29: the reckoned basis of a pool whose gauge is LOST. -/
def State.reckon (s : State) (k t0 : Nat) : Nat :=
  let r := s.active.pool k
  match (s.poolAt k).passBasis with
  | none => r.assumedStorage
  | some p =>
    r.clampStorage ((p.storage : Int) + (s.volumeIn k t0 : Nat) + (lateralVolume (s.poolAt k).rates p t0 : Nat)
      - ((s.damAt k).reading t0 : Nat))

/-- R29: the storage basis a pass takes for pool k. -/
def State.takenBasis (s : State) (k t0 : Nat) : Nat :=
  if (s.gauge k).state == .lost then s.reckon k t0
  else (s.poolAt k).basis.getD (s.active.pool k).assumedStorage

/-- R29, R59: a pool after stage 1. -/
def State.poolTaken (s : State) (k t0 bin : Nat) : Pool :=
  let b := s.takenBasis k t0
  { s.poolAt k with
    basis := some b
    passBasis := some { storage := b, time := t0, bin := bin }
    declared := none }

/-- R34: the pools whose gauges are LOST are evaluated on the basis the pass took. -/
def State.evaluateLost (s : State) : State :=
  (s.active.damNumbers.filter fun k => (s.gauge k).state == .lost).foldl State.evaluateBand s

/-- Stage 1 of a pass (R63) at the present second: the bases, the pass readings (R37, R42) and the lateral rates (R59), in
one step; then the bands of the reckoned pools and the level notices of changed reckoned levels (R33). -/
def State.takeBases (s : State) : State :=
  let t0 := s.clock
  let bin := s.active.pass.binLength
  let before := s.heads
  let pools := gen1 fun k => if s.active.hasDam k then s.poolTaken k t0 bin else s.poolAt k
  let rates := gen1 fun k =>
    if s.active.hasDam k then (s.poolAt k).passRates s.forecast t0 bin else Vector.replicate 12 0
  let dams := gen1 fun k =>
    if s.active.hasDam k then { s.damAt k with volume := 0, mark := t0 } else s.damAt k
  let reaches := gen1 fun k => if s.active.hasReach k then (s.reachAt k).afterReading t0 else s.reachAt k
  let pass :=
    { s.pass with state := .running, stage := .routing, forecast := { start := t0, bin := bin }, rates := rates,
                  dams := Vector.replicate 6 {} }
  let s' := { s with pools := pools, dams := dams, reaches := reaches, pass := pass }
  s'.evaluateLost.levelNotice before

/-- R53: is a configured pool in AWAIT? -/
def State.awaiting (s : State) : Bool := s.active.damNumbers.any fun k => (s.gauge k).state == .await

/-- R53, R51: a pass starts and its timer is restarted; it is DEFERRED while a pool is in AWAIT. -/
def State.startPass (s : State) : State :=
  let s' := { s with pass := { s.pass with timer := some (s.clock + s.active.pass.period) } }
  if s'.awaiting then { s' with pass := { s'.pass with state := .deferred } } else s'.takeBases

/-- R52: an early-pass request. -/
def State.requestPass (s : State) : State :=
  if !s.mode.running then s
  else if s.inFlight then { s with pass := { s.pass with again := true } }
  else s.startPass

/-- R53: a deferred pass is examined again; it becomes RUNNING when no configured pool remains in AWAIT. -/
def State.reexamine (s : State) : State :=
  if s.pass.state == .deferred && !s.awaiting then s.takeBases else s

end Sys2Proof.Machine
end

