-- ==== Sys2Proof/Machine/Allocator.lean ====
section
/-! DEFINITION. The Release Allocator's shared operations: rank (R78), admission (R83 to R86), entry (R76, R82), arrival
evaluation (R87), removal and the decay of compensation entries (R91, R111), abandonment (R92). -/

namespace Sys2Proof.Machine

/-! ### Rank -/

/-- R78 keys 1 and 2: the position of a group by the precedence setting (R11). -/
def PrecedenceRec.position (p : PrecedenceRec) (g : ClaimGroup) : Nat :=
  let energy := if p.floodFirst then 1 else 0
  match g with
  | .flood => if p.floodFirst then 0 else 2
  | .dispatch => energy + (if p.dispatchFirst then 0 else 1)
  | .station => energy + (if p.dispatchFirst then 1 else 0)

/-- R78 keys 1 to 3 as one number, lower for the higher rank. -/
def PrecedenceRec.rank (p : PrecedenceRec) (c : Claim) : Nat := p.position c.group * 4 + (3 - c.urgency)

/-- A claim put in its place among ranked ones: behind those whose key is not higher (R78 key 4). -/
def insertRanked (p : PrecedenceRec) (c : Claim) : List Claim → List Claim
  | [] => [c]
  | d :: rest => if p.rank c < p.rank d then c :: d :: rest else d :: insertRanked p c rest

/-- R78: the claims of a list in rank order; claims of one key stay in list order. -/
def ranked (p : PrecedenceRec) (l : List Claim) : List Claim := l.foldl (fun acc c => insertRanked p c acc) []

/-! ### Admission -/

/-- R83: the departure exposure of a claim in bin b. -/
def Claim.departureExposure (c : Claim) (f : Forecast) (tau b : Nat) : Nat :=
  min (min (c.endIn f) f.horizon) (f.binEnd b) - max c.start tau

/-- R83, R12: the arrival exposure of a claim in bin b, after a travel time: 0 in every bin where the travel time is at least the
time from max(s, τ) to the horizon. DEDUCED (log entry 4): elsewhere the formula of R83 is followed to the letter, and that last
sentence of R83 goes before it where a start before τ sets the two apart. -/
def Claim.arrivalExposure (c : Claim) (f : Forecast) (tau travel b : Nat) : Nat :=
  if f.horizon ≤ max c.start tau + travel then 0
  else min (min (c.endIn f) f.horizon + travel) (f.binEnd b) - max (c.start + travel) tau

/-- R84: a quotient of a margin by an exposure, by floor, a negative one taken as 0. -/
def quotient (margin : Int) (exposed : Nat) : Nat := (margin / (exposed : Int)).toNat

/-- R84 (A): the upstream floor bounds. -/
def State.boundsA (s : State) (c : Claim) (f : Forecast) (tau : Nat) : List Nat :=
  (binNumbers.filter fun b => 0 < c.departureExposure f tau b).map fun b =>
    quotient ((f.pool c.dam).F b - s.floorLimit c.dam) (c.departureExposure f tau b)

/-- R84 (B): the limit of the pool below for a claim's group. -/
def State.lowerLimit (s : State) (c : Claim) : Int :=
  if c.group == .flood then s.floodLimit (c.dam + 1) else s.ceilingLimit (c.dam + 1)

/-- R84 (B): the downstream ceiling bounds, for a dam above the last. -/
def State.boundsB (s : State) (c : Claim) (f : Forecast) (tau : Nat) : List Nat :=
  if c.dam < s.damCount then
    (binNumbers.filter fun b => 0 < c.arrivalExposure f tau (s.travel c.dam) b).map fun b =>
      quotient (s.lowerLimit c - (f.pool (c.dam + 1)).F b) (c.arrivalExposure f tau (s.travel c.dam) b)
  else []

/-- R84 (C): the river limit bounds, at the last dam. -/
def State.boundsC (s : State) (c : Claim) (f : Forecast) (tau : Nat) : List Nat :=
  if c.dam == s.damCount then
    (binNumbers.filter fun b => 0 < c.departureExposure f tau b).map fun b =>
      (((s.active.dam c.dam).qBelow : Int) - (f.pool c.dam).P b).toNat
  else []

/-- R85 (D): the bound from the gates, given every other claim's grant and the forced spill. -/
def State.boundD (s : State) (c : Claim) (grantOf : Claim → Nat) (forced : Nat) : Nat :=
  let others := s.claims.filter fun d => d.handle != c.handle
  match c.kind with
  | .turbine u => s.capacity u - sumOver (others.filter fun d => d.onUnit u) grantOf
  | .spill =>
    s.spillCapacity c.dam - sumOver (others.filter fun d => d.spillAt c.dam) grantOf - forced - s.compensation c.dam

/-- R86: the admissible flow: the smallest of the request and every bound. -/
def State.admissible (s : State) (c : Claim) (f : Forecast) (tau : Nat) (grantOf : Claim → Nat) (forced : Nat) : Nat :=
  (s.boundsA c f tau ++ s.boundsB c f tau ++ s.boundsC c f tau ++ [s.boundD c grantOf forced]).foldl min c.requested

/-- R86: the state and grant an admissible flow gives. -/
def Claim.decide (c : Claim) (a : Nat) : ClaimState × Nat :=
  if a == c.requested then (.granted, a)
  else if c.minimum ≤ a then (.clamped, a)
  else (.pending, 0)

/-- R86: the admission of one claim; one on an unavailable unit is not computed. -/
def State.admitClaim (s : State) (c : Claim) (f : Forecast) (tau : Nat) (grantOf : Claim → Nat) (forced : Nat) :
    ClaimState × Nat :=
  if s.unitUnavailable c then (.suspended, 0) else c.decide (s.admissible c f tau grantOf forced)

/-! ### Compensation entries -/

/-- R111: an entry lowered to the held grants that remain on its unit, and removed when they sum to 0. -/
def decayEntries (unit held : Nat) (l : List CompEntry) : List CompEntry :=
  (l.map fun e => if e.unit == unit && held < e.flow then { e with flow := held } else e).filter fun e => 0 < e.flow

/-- R111, R62: the decay of a unit's entry at dam k after a claim has left, with the fall of the compensation sum applied to
the published forecast. -/
def State.decay (s : State) (k unit : Nat) : State :=
  let plan := s.planAt k
  let plan' := { plan with entries := decayEntries unit (s.heldSum unit) plan.entries }
  (s.setPlan k plan').adjustConstant k ((plan'.compensation : Int) - plan.compensation)

/-- R111: the decay that a claim's removal makes, when it holds a held grant. -/
def State.decayFor (s : State) (c : Claim) : State :=
  match c.kind, c.held with
  | .turbine u, some _ => s.decay c.dam u
  | _, _ => s

/-- R91, R90: a claim leaves the table outside a publish: its entry decays, and the dam's targets follow a grant or an entry
that changed (R89, R111). -/
def State.removeClaim (s : State) (c : Claim) : State :=
  let s' := (s.dropClaim c.handle).decayFor c
  if c.grant != 0 || s'.compensation c.dam != s.compensation c.dam then s'.recompute c.dam else s'

/-- R91: a claim's end is reached. With no pass in flight it is removed, an end at its abandon deadline latching CLAIM_ENDED
(R97); with a pass in flight it stays and its grant stops counting toward targets. -/
def State.endClaim (s : State) (c : Claim) : State :=
  if s.inFlight then
    let s' := s.updateClaim c.handle fun c => { c with reached := true }
    if c.grant != 0 then s'.recompute c.dam else s'
  else
    let s' := s.removeClaim c
    if c.deadline.isSome then s'.raiseOwner .claimEnded c.owner else s'

/-- Has the end of a claim been reached? -/
def Claim.endedAt (c : Claim) (t : Nat) : Bool :=
  match c.finish with
  | some e => e ≤ t
  | none => false

/-- R91: the end of the claim of a handle, if it is reached at the present second. -/
def State.endIfReached (s : State) (handle : Nat) : State :=
  match s.claimOf handle with
  | some c => if c.endedAt s.clock && !c.reached then s.endClaim c else s
  | none => s

/-! ### Abandonment -/

/-- R92: an open-ended claim with its abandon deadline set. -/
def Claim.abandon (c : Claim) (deadline : Nat) : Claim :=
  { c with finish := some deadline, deadline := some deadline }

/-- R92: a link goes down: its open-ended claims are abandoned, their grants leave the published forecast beyond the deadline,
and those whose deadline is the present second end at once. -/
def State.abandonClaims (s : State) (l : Nat) : State :=
  let deadline := s.clock + (s.active.link l).abandon
  let open_ := s.claims.filter fun c => c.owner == l && c.finish.isNone
  let s1 := open_.foldl (fun s c => s.removeGrant c c.grant deadline Forecast.horizon) s
  let s2 := open_.foldl (fun s c => s.updateClaim c.handle fun c => c.abandon deadline) s1
  open_.foldl (fun s c => s.endIfReached c.handle) s2

/-- R92: is the claim restored when its link returns: a deadline not before the present second and not yet taken? -/
def Claim.restorable (c : Claim) (l now : Nat) : Bool :=
  c.owner == l && !c.reached && (match c.deadline with | some d => now ≤ d | none => false)

/-- R92: a link returns: the deadlines that are not yet reached are cleared. -/
def State.restoreClaims (s : State) (l : Nat) : State :=
  let back := s.claims.filter fun c => c.restorable l s.clock
  let s1 := back.foldl (fun s c => s.addGrant c c.grant (c.deadline.getD 0) Forecast.horizon) s
  back.foldl (fun s c => s.updateClaim c.handle fun c => { c with finish := none, deadline := none }) s1

/-! ### Entry -/

/-- R76: the lowest-numbered free slot. -/
def State.freeSlot (s : State) : Option Nat := (List.range Config.claimSlots).find? fun n => (s.claimAt n).isNone

/-- R75: the group a class places. -/
def MasterClass.group : MasterClass → ClaimGroup
  | .dispatch => .dispatch
  | .flood => .flood
  | .station => .station
  | .service => .dispatch

/-- R76: the next generation of a slot. -/
def nextGeneration (g : Nat) : Nat := (g + 1) % 1024

/-- R82 steps 1 to 3: the claim as it enters slot n. -/
def State.newClaim (s : State) (n link : Nat) (cls : MasterClass) (arrival : Nat) (r : ClaimRequest) : Claim :=
  let start := arrival + r.offset
  let c : Claim :=
    { handle := nextGeneration (get0 s.generations n) * 64 + n
      owner := link, group := cls.group, urgency := r.urgency, dam := r.dam, kind := r.kind
      requested := r.requested, minimum := r.minimum, start := start
      finish := r.duration.map fun d => start + d }
  if c.finish.isNone && !(s.linkAt link).up then c.abandon (s.clock + (s.active.link link).abandon) else c

/-- R82 steps 1 and 2: the table with a claim in slot n, at the end of the list. -/
def State.enter (s : State) (n : Nat) (c : Claim) : State :=
  { s with claims := s.claims ++ [c], generations := put0 s.generations n (nextGeneration (get0 s.generations n)) }

/-- R87: does a claim of lower rank than c hold a positive grant, at any dam? -/
def State.lowerRankedGrant (s : State) (c : Claim) : Bool :=
  s.claims.any fun d => d.grant != 0 && s.active.precedence.rank c < s.active.precedence.rank d

/-- R77: a claim's state and grant, a suspended one also taking its held grant. -/
def Claim.settleAt (c : Claim) (state : ClaimState) (grant : Nat) : Claim :=
  { c with state := state, grant := grant, held := if state == .suspended then some 0 else none }

/-- R87: the arrival evaluation of a claim already in the table. -/
def State.evaluateArrival (s : State) (c : Claim) : State :=
  let f := s.forecast.getD {}
  let r := s.admitClaim c f s.clock (·.grant) (s.planAt c.dam).forced
  let s1 := s.updateClaim c.handle fun c => c.settleAt r.1 r.2
  let s2 := if r.2 != 0 then (s1.addGrant c r.2 s.clock c.endIn).recompute c.dam else s1
  if (r.1 == .clamped || r.1 == .pending) && s.lowerRankedGrant c then s2.requestPass else s2

/-- R80: entry in HOLD and SERVICE: PENDING, or SUSPENDED on an unavailable unit. -/
def State.enterWaiting (s : State) (c : Claim) : State :=
  s.updateClaim c.handle fun d => d.settleAt (if s.unitUnavailable c then .suspended else .pending) 0

/-- R82: a claim enters the table and its reply is formed; an end already past is reached at once (R81). -/
def State.admitRequest (s : State) (link : Nat) (cls : MasterClass) (arrival : Nat) (r : ClaimRequest) :
    State × ReplyBody :=
  match s.freeSlot with
  | none => (s, .status .tableFull)
  | some n =>
    let c := s.newClaim n link cls arrival r
    let s1 := s.enter n c
    let s2 := if s.mode == .coordinate then s1.evaluateArrival c else s1.enterWaiting c
    match s2.claimOf c.handle with
    | some d => (s2.endIfReached c.handle, .claim d.state d.handle d.grant)
    | none => (s2, .claim .pending c.handle 0)

end Sys2Proof.Machine
end

