-- ==== Sys2Proof/Machine/Trips.lean ====
section
/-! DEFINITION. Bring-up (R117 to R119), fault (R130) and trip (R132, R107 to R110) of a gate channel. -/

namespace Sys2Proof.Machine

/-! ### Trip -/

/-- R107, R93: the claims on a tripped unit are suspended; one not already SUSPENDED takes its grant as its held grant. -/
def Claim.suspendAtTrip (c : Claim) : Claim :=
  { c with state := .suspended, grant := 0, held := if c.state == .suspended then c.held else some c.grant }

/-- R107, R109: the suspensions of a trip, the suspended grants leaving the published forecast. -/
def State.suspendUnit (s : State) (u : Nat) : State :=
  let on := s.claims.filter fun c => c.onUnit u
  let s1 := on.foldl (fun s c => s.removeGrant c c.grant s.clock c.endIn) s
  { s1 with claims := s1.claims.map fun c => if c.onUnit u then c.suspendAtTrip else c }

/-- R108 step 2: the spare spill of dam k. -/
def State.spareSpill (s : State) (k : Nat) : Nat :=
  s.spillCapacity k - sumOver (s.claims.filter fun c => c.spillAt k) (·.grant) - (s.planAt k).forced - s.compensation k

/-- R108: an entry of a unit created at the end of the list, or added to the one it has, up to 60,000. -/
def addEntry (unit flow : Nat) (l : List CompEntry) : List CompEntry :=
  if l.any fun e => e.unit == unit then
    l.map fun e => if e.unit == unit then { e with flow := min Config.maxFlow (e.flow + flow) } else e
  else l ++ [{ unit := unit, flow := flow }]

/-- R108, R109: the compensation entry of a trip of unit u of dam k, whose actual flow and whose claims' grants before the
trip are given; SPILL_SHORTFALL latches when the spare spill or 60,000 cuts it. -/
def State.compensate (s : State) (k u flow grants : Nat) : State :=
  let wanted := min flow grants
  let limit := min (s.spareSpill k) Config.maxFlow
  let given := min wanted limit
  let s1 := if limit < wanted then s.raiseDam .spillShortfall k else s
  if given == 0 then s1
  else
    let plan := s1.planAt k
    let plan' := { plan with entries := addEntry u given plan.entries }
    (s1.setPlan k plan').adjustConstant k ((plan'.compensation : Int) - plan.compensation)

/-- R107 to R109: the Release Allocator's part of a trip of unit u of dam k, with its actual flow at the trip, and the notice
that recomputes the dam's targets. -/
def State.reportTrip (s : State) (k u flow : Nat) : State :=
  let grants := sumOver (s.claims.filter fun c => c.onUnit u) (·.grant)
  let s1 := s.suspendUnit u
  let s2 := if (s.active.dam k).compensate then s1.compensate k u flow grants else s1
  s2.recompute k

/-- R132 steps 1 and 2: the channel as it enters TRIPPED, its hold ended. -/
def Channel.trip (c : Channel) : Channel :=
  { c.endHold with
    state := .tripped, bringupTimer := none, trackTimer := none, feedbackTimer := none, waitMark := false,
    faultKind := none, target := some 0 }

/-- R132 step 6: the trip step, when the channel has a setpoint. -/
def Channel.tripStep (c : Channel) (tripLimit expiry : Nat) : Channel :=
  match c.setpoint with
  | some sp => { c.drive (sp - min sp tripLimit) with rampTimer := some expiry }
  | none => c

/-- R132: a trip assertion on a TURBINE channel that is neither OFFLINE nor TRIPPED. -/
def State.trip (s : State) (c : Nat) : State :=
  let rec_ := s.active.channel c
  let k := s.damOfChannel c
  let flow := (s.chan c).actual
  let s1 := (s.setChan c (s.chan c).trip).raiseDam .unitTrip k
  let s2 := (s1.reportTrip k c flow).requestPass
  s2.setChan c ((s2.chan c).tripStep rec_.tripLimit (s2.clock + rec_.rampInterval))

/-! ### Bring-up -/

/-- R117: the channel as it enters BRINGUP; the setpoint keeps its value. -/
def Channel.startBringup (c : Channel) (expiry : Nat) : Channel :=
  { c with
    state := .bringup, rampTimer := none, trackTimer := none, feedbackTimer := none, faultKind := none,
    waitMark := false, bringupTimer := some expiry }

/-- R117: bring-up starts. A unit leaving OFFLINE has its trip input read, and an asserted one trips it at once. -/
def State.startBringup (s : State) (c : Nat) : State :=
  let rec_ := s.active.channel c
  let fromOffline := (s.chan c).state == .offline
  let s1 := s.handover c ((s.chan c).startBringup (s.clock + rec_.bringupTimeout))
  if fromOffline && rec_.kind == .turbine && s.tripLine c then s1.trip c else s1

/-- R168: an entry into HOLD brings up every configured channel then OFFLINE. -/
def State.bringUpAll (s : State) : State :=
  (channelNumbers.filter fun c => (s.active.damOf c).isSome && (s.chan c).state == .offline).foldl
    State.startBringup s

/-- R118, R141: setpoint and target set to a position, whose flow is given, and the local opening with them on a held channel. -/
def Channel.aimAt (c : Channel) (p flow : Nat) : Channel :=
  Channel.localAim
    { c with setpoint := some p, target := some p, localOpening := if c.holder.isSome then some p else c.localOpening }
    flow

/-- R118: the channel as it enters READY from BRINGUP: the command carries its setpoint, and the ramp step and feedback
timers start. -/
def Channel.enterReady (c : Channel) (rampExpiry feedbackExpiry : Nat) : Channel :=
  { c.send (c.setpoint.getD 0) with
    state := .ready, waitMark := false, bringupTimer := none, rampTimer := some rampExpiry,
    feedbackTimer := some feedbackExpiry }

/-- R118, R119: the channel enters READY; an early pass is requested and the dam's targets are recomputed. -/
def State.enterReady (s : State) (c : Nat) : State :=
  let rec_ := s.active.channel c
  let x := (s.chan c).enterReady (s.clock + rec_.rampInterval) (s.clock + rec_.feedbackTimeout)
  ((s.setChan c x).requestPass).recomputeFor c

/-! ### Fault -/

/-- The capture kind of a channel fault (R130). -/
def FaultKind.capture : FaultKind → CaptureKind
  | .tracking => .channelTracking
  | .noFeedback => .channelNoFeedback
  | .feedbackRange => .channelFeedbackRange
  | .bringupTimeout => .bringupTimeout

/-- R130 step 1: the channel as it enters FAULT; its setpoint and actual flow stay. -/
def Channel.enterFault (c : Channel) (kind : FaultKind) : Channel :=
  { c with
    state := .fault, faultKind := some kind, waitMark := false, rampTimer := none, trackTimer := none,
    feedbackTimer := none, bringupTimer := none }

/-- R130: a channel enters FAULT. -/
def State.enterFault (s : State) (c : Nat) (kind : FaultKind) : State :=
  let x := (s.chan c).enterFault kind
  let s1 := (s.setChan c x).raiseDam .channelFault (s.damOfChannel c)
  ((s1.offer kind.capture c x.setpoint x.measured).requestPass).recomputeFor c

end Sys2Proof.Machine
end

