-- ==== Sys2Proof/Machine/Stages.lean ====
section
/-! DEFINITION. Stages 2 to 6 of a pass (R64 to R69, R100 to R105, R112) and the drain of stage 7 (R70, R81). -/

namespace Sys2Proof.Machine

/-- Is the pass RUNNING with this stage to make next? -/
def State.atStage (s : State) (st : Stage) : Bool := s.pass.state == .running && s.pass.stage == st

def State.setStage (s : State) (st : Stage) : State := { s with pass := { s.pass with stage := st } }

def State.setWorkDam (s : State) (k : Nat) (w : WorkDam) : State :=
  { s with pass := { s.pass with dams := put1 s.pass.dams k w } }

/-- R64: stage 2. -/
def State.routingStage (s : State) : State :=
  let t0 := s.pass.forecast.start
  let reaches := gen1 fun k =>
    if s.active.hasReach k then (s.reachAt k).upkeep (s.travel k) t0 (s.damAt k).outflow else s.reachAt k
  { s with reaches := reaches }.setStage .base

/-- R65: every working grant is set to 0. -/
def Claim.clearWork (c : Claim) : Claim := { c with workGrant := 0, workState := .pending, workEnd := c.finish }

/-- R65: what stage 3 reads for dam k. -/
def State.readDam (s : State) (k : Nat) : WorkDam :=
  { compensation := s.compensation k, unmanaged := s.unmanaged k, forced := (s.planAt k).forced, record := none }

/-- R65: stage 3. -/
def State.baseStage (s : State) : State :=
  let dams := gen1 fun k => if s.active.hasDam k then s.readDam k else {}
  let s1 := { s with claims := s.claims.map Claim.clearWork, pass := { s.pass with dams := dams } }
  (s.active.damNumbers.foldl State.reformPool s1).setStage .sweep

/-- R66: the pass's forecast with a working grant of a claim added from max(s, t0), its peak rates formed exactly anew. -/
def State.addWork (s : State) (c : Claim) (g : Nat) : State :=
  let f := s.pass.forecast
  let changed := f.change (f.releaseF s.damCount (s.travel c.dam) c.dam g (max c.start f.start) (c.endIn f)) fun _ _ => 0
  let s' := { s with pass := { s.pass with forecast := changed } }
  s'.setPassPool c.dam { storage := (changed.pool c.dam).storage, peak := s'.peaks (s'.plan c.dam) }

/-- R66: is the claim marked withdrawn, or its end at or before t0? On an available unit it is then left as stage 3 left it. -/
def Claim.passedOver (c : Claim) (t0 : Nat) : Bool := c.withdrawn != .clear || c.endedAt t0

/-- R66, R88: the sweep takes one claim. One on an unavailable unit takes working state SUSPENDED, also where it is withdrawn or
ended (State.admitClaim). -/
def State.sweepClaim (s : State) (c : Claim) : State :=
  let f := s.pass.forecast
  if c.passedOver f.start && !s.unitUnavailable c then s
  else
    let r := s.admitClaim c f f.start (·.workGrant) (get1 s.pass.dams c.dam).forced
    let s' := s.updateClaim c.handle fun c => { c with workState := r.1, workGrant := r.2, workEnd := c.finish }
    if r.2 != 0 then s'.addWork c r.2 else s'

/-- R66: a claim as the sweep of HOLD or SERVICE leaves it. -/
def Claim.notAdmitted (c : Claim) : Claim := { c with workGrant := 0, workState := .pending }

/-- R66: stage 4. -/
def State.sweepStage (s : State) : State :=
  let s' :=
    if s.mode == .coordinate then (ranked s.active.precedence s.claims).foldl State.sweepClaim s
    else { s with claims := s.claims.map Claim.notAdmitted }
  s'.setStage .forcing

/-- R100: the requirement of dam k, from the forecast formed with its forced spill taken as 0. -/
def State.requirement (s : State) (k : Nat) : Nat :=
  let storages := s.storages (s.planOf k 0) k
  listMax (binNumbers.map fun b =>
    let excess := storages.getD (b - 1) 0 - s.floodLimit k
    if 0 < excess then ceilDiv excess.toNat (b * s.pass.forecast.bin) else 0)

/-- R101: the cap on forced spill at dam k. -/
def State.forcedCap (s : State) (k : Nat) : Nat :=
  min Config.maxFlow
    (s.spillCapacity k - sumOver (s.claims.filter fun c => c.spillAt k) (·.workGrant) - s.compensation k)

/-- R102: the requirement applied against the present forced spill, and whether the value is held in the band. -/
def State.hysteresis (s : State) (k required cap : Nat) : Nat × Bool :=
  let present := (get1 s.pass.dams k).forced
  if present ≤ required then (required, false)
  else if (s.passStorage k : Int) < s.ceilingLimit k then (required, false)
  else (min present cap, true)

/-- R67, R100 to R103: the forcing of dam k. -/
def State.forceDam (s : State) (k : Nat) : State :=
  let need := s.requirement k
  let cap := s.forcedCap k
  let set := s.hysteresis k (min need cap) cap
  let w := { get1 s.pass.dams k with
    forced := set.1
    record := some { requirement := need, cap := cap, capBit := decide (cap < need), held := set.2 } }
  let s1 := if cap < need then s.raiseDam .overtopRisk k else s
  let s2 := (s1.setWorkDam k w).reformPool k
  if s.active.hasReach k then s2.reformPool (k + 1) else s2

/-- R104: does a bin's peak planned outflow at the last dam exceed Q_below? -/
def State.riverExceeded (s : State) : Bool :=
  binNumbers.any fun b => ((s.active.dam s.damCount).qBelow : Int) < (s.pass.forecast.pool s.damCount).P b

/-- R67, R104: stage 5. -/
def State.forcingStage (s : State) : State :=
  let s1 := s.active.damNumbers.foldl State.forceDam s
  let s2 := if s1.riverExceeded then s1.raiseDam .downstreamLimitExceeded s1.damCount else s1
  s2.setStage .publish

/-! ### Publish -/

/-- R68, R93, R94: a claim takes its working grant and state; one published SUSPENDED keeps its held grant, or takes the
grant it held if it was not SUSPENDED, and any other has its held grant cleared. -/
def Claim.publish (c : Claim) (state : ClaimState) (grant : Nat) : Claim :=
  { c with
    state := state, grant := grant
    held := if state == .suspended then (if c.state == .suspended then c.held else some c.grant) else none }

/-- R68, R69 step 1: what a claim is at the publish. -/
def State.publishClaim (s : State) (c : Claim) : Claim :=
  if s.unitUnavailable c then c.publish .suspended 0 else c.publish c.workState c.workGrant

/-- R69 steps 2 and 3: is the claim removed in the reconciliation at time p? -/
def Claim.removedAt (c : Claim) (p : Nat) : Bool := c.withdrawn != .clear || c.endedAt p

/-- R69: the forecast corrected for one claim that the sweep gave a positive working grant. DEDUCED (log entry 35): a claim whose end was
changed after the sweep and changed back by the publish has the end the sweep used, and its release stands. -/
def State.correctClaim (s : State) (c : Claim) : State :=
  let g := c.workGrant
  let sweptEnd := fun f => c.workEnd.getD (Forecast.horizon f)
  if g == 0 then s
  else if s.unitUnavailable c || c.withdrawn != .clear then s.removeGrant c g s.clock sweptEnd
  else if c.finish != c.workEnd then (s.removeGrant c g s.clock sweptEnd).addGrant c g s.clock c.endIn
  else s

/-- R97: a claim removed at the publish latches CLAIM_ENDED if a SERVICE link withdrew it, or its end was its abandon
deadline. DEDUCED (log entry 27): one that its owner withdrew latches nothing, also where its deadline had been reached. -/
def Claim.endLatches (c : Claim) : Bool :=
  c.withdrawn == .byService || (c.withdrawn == .clear && c.deadline.isSome)

/-- R112: the entries of dam k after the publish's entry removals: decayed for the removed claims, and gone where the unit is
available. -/
def State.entriesAtPublish (s : State) (removed : List Claim) (k : Nat) : List CompEntry :=
  let decayed := removed.foldl (fun l c =>
    match c.kind, c.held with
    | .turbine u, some _ => if c.dam == k then decayEntries u (s.heldSum u) l else l
    | _, _ => l) (s.planAt k).entries
  decayed.filter fun e => !(s.chan e.unit).available

/-- R68, R105, R112: the plan of dam k at the publish, and the forced spill it takes. -/
def State.planAtPublish (s : State) (removed : List Claim) (k : Nat) : DamPlan :=
  let w := get1 s.pass.dams k
  { forced := w.forced, entries := s.entriesAtPublish removed k, record := w.record }

/-- R105: FORCED_SPILL_STARTED latches for dam k when its forced spill goes from 0 to positive. -/
def State.startedLatch (s : State) (old : Tab 6 DamPlan) (k : Nat) : State :=
  if (get1 old k).forced == 0 && (s.planAt k).forced != 0 then s.raiseDam .forcedSpillStarted k else s

/-- R96: GRANT_REDUCED latches for the owner of a claim whose grant is lower than just before the publish. -/
def State.reducedLatch (s : State) (old : List Claim) (c : Claim) : State :=
  if old.any fun d => d.handle == c.handle && c.grant < d.grant then s.raiseOwner .grantReduced c.owner else s

/-- R69: the compensation sum of dam k compared with the sum recorded at stage 3. -/
def State.correctConstant (s : State) (k : Nat) : State :=
  s.adjustConstant k ((s.compensation k : Int) - (get1 s.pass.dams k).compensation)

/-- R68, R69, R105, R112, R96, R97: stage 6. -/
def State.publishStage (s : State) : State :=
  let settled := s.claims.map s.publishClaim
  let removed := settled.filter fun c => c.removedAt s.clock
  let kept := settled.filter fun c => !c.removedAt s.clock
  let pools := gen1 fun k =>
    if s.active.hasDam k then { s.poolAt k with rates := get1 s.pass.rates k } else s.poolAt k
  let s1 := { s with forecast := some s.pass.forecast, pools := pools, claims := kept }
  let plans := gen1 fun k => if s.active.hasDam k then s1.planAtPublish removed k else s.planAt k
  let s2 := { s1 with plans := plans }
  let s3 := settled.foldl State.correctClaim s2
  let s4 := s.active.damNumbers.foldl State.correctConstant s3
  let s5 := s.active.damNumbers.foldl (fun t k => t.startedLatch s.plans k) s4
  let s6 := (removed.filter Claim.endLatches).foldl (fun t c => t.raiseOwner .claimEnded c.owner) s5
  (kept.foldl (fun t c => t.reducedLatch s.claims c) s6).setStage .completion

end Sys2Proof.Machine
end

