-- ==== Sys2Proof/Machine/Gauges.lean ====
section
/-! DEFINITION. Gauge readings and gauge loss (R22 to R25, R30). -/

namespace Sys2Proof.Machine

/-- R22: is the gauge's line read: a configured pool's, or the tailwater's when it is configured present? -/
def State.gaugeConfigured (s : State) (g : Nat) : Bool :=
  if g == tailGauge then s.active.cascade.tailPresent else s.active.hasDam g

/-- The gauge's timeout (R4, R6). -/
def State.gaugeTimeout (s : State) (g : Nat) : Nat :=
  if g == tailGauge then s.active.cascade.tailTimeout else (s.active.pool g).timeout

/-- R23: the gauge's jump limit. -/
def State.jumpLimit (s : State) (g : Nat) : Nat :=
  if g == tailGauge then s.active.cascade.tailJump else (s.active.pool g).jump

/-- R22: the acceptance window. The tailwater's is the whole range. -/
def State.inWindow (s : State) (g level : Nat) : Bool :=
  g == tailGauge ||
    let r := s.active.pool g
    (get0 r.points 0).1 - 200 ≤ level && level ≤ min 65535 ((get0 r.points 8).1 + 200)

/-- R22: is a reading taken and not discarded? -/
def State.readingTaken (s : State) (g level : Nat) (good : Bool) : Bool :=
  s.mode.running && s.gaugeConfigured g && good && s.inWindow g level

/-- R23: the jump check: is the reading accepted? -/
def Gauge.accepts (x : Gauge) (limit level : Nat) : Bool :=
  match x.accepted with
  | none => true
  | some a =>
    absDiff level a ≤ limit ||
      match x.candidate with
      | some c => absDiff level c ≤ limit
      | none => false

/-- R24, R30: an accepted pool reading gives the storage basis; a return from LOST records the reckoning error. The storage
basis it replaces is the one held, or the assumed storage. -/
def State.rebase (s : State) (k level : Nat) (wasLost : Bool) : State :=
  let r := s.active.pool k
  let measured := r.storageAt level
  let p := s.poolAt k
  let error : Int := (measured : Int) - (p.basis.getD r.assumedStorage : Nat)
  (s.setPool k { p with basis := some measured, reckoning := if wasLost then error else p.reckoning }).evaluateBand k

/-- R24, R30, R33, R53: a reading is accepted. -/
def State.acceptReading (s : State) (g level : Nat) : State :=
  let before := s.heads
  let wasLost := (s.gauge g).state == .lost
  let s1 := s.setGauge g
    { state := .good, accepted := some level, candidate := none, timer := some (s.clock + s.gaugeTimeout g) }
  let s2 := if g == tailGauge then s1 else s1.rebase g level wasLost
  let s3 := s2.levelNotice before
  if g == tailGauge then s3 else s3.reexamine

/-- R23: a reading that is not accepted becomes the candidate. -/
def State.holdCandidate (s : State) (g level : Nat) : State :=
  s.setGauge g { s.gauge g with candidate := some level }

/-- R22, R23. -/
def State.takeReading (s : State) (g level : Nat) (good : Bool) : State :=
  if s.readingTaken g level good then
    if (s.gauge g).accepts (s.jumpLimit g) level then s.acceptReading g level else s.holdCandidate g level
  else s

/-- R25: the dam a gauge's loss is scoped to: its pool's, or DN for the tailwater. -/
def State.gaugeDam (s : State) (g : Nat) : Nat := if g == tailGauge then s.damCount else g

/-- R25: the reading timer expires: the gauge is LOST, GAUGE_LOST latches, a fault is offered to the capture, and a deferred
pass is examined again (R53). A level that the loss changes goes out as a level notice (R33). -/
def State.loseGauge (s : State) (g : Nat) : State :=
  let before := s.heads
  let s1 := s.setGauge g { s.gauge g with state := .lost, timer := none }
  let s2 := (s1.raiseDam .gaugeLost (s.gaugeDam g)).offer .gaugeLost g none none
  let s3 := s2.levelNotice before
  if g == tailGauge then s3 else s3.reexamine

end Sys2Proof.Machine
end

