-- ==== Sys2Proof/Machine/Links.lean ====
section
/-! DEFINITION. The Link Interface's shared operations: forming replies in the request buffer (R149), link loss and return (R147,
R143, R164), a line break (R148), the end of a transmitted frame. -/

namespace Sys2Proof.Machine

/-! ### Replies -/

/-- A reply kind of the catalogue (R151) that may stay in progress. -/
def releaseKind : Nat := 0x82
def leaveServiceKind : Nat := 0x91

/-- The reply kind of an unknown kind (R146). -/
def unknownReplyKind : Nat := 0xFF

/-- R149: the reply of the request just buffered is formed; it is ready if that request is the first. -/
def Link.answerLast (x : TxContext) (body : ReplyBody) (l : Link) : Link :=
  match l.buffer.reverse with
  | [] => l
  | e :: earlier =>
    let l' := { l with buffer := earlier.reverse ++ [{ e with reply := some body }] }
    if earlier.isEmpty then Link.ready x .first l' else l'

/-- The first request of a reply kind still in progress is given its reply. -/
def fillFirst (kind : Nat) (body : ReplyBody) : List BufEntry → List BufEntry
  | [] => []
  | e :: rest =>
    if e.kind == kind && e.reply.isNone then { e with reply := some body } :: rest
    else e :: fillFirst kind body rest

/-- R149: the reply of a request that was in progress is formed; it is ready if that request is the first. -/
def Link.answerWaiting (x : TxContext) (kind : Nat) (body : ReplyBody) (l : Link) : Link :=
  let buffer := fillFirst kind body l.buffer
  let l' := { l with buffer := buffer }
  match l.buffer, buffer with
  | e :: _, e' :: _ => if e.reply.isNone && e'.reply.isSome then Link.ready x .first l' else l'
  | _, _ => l'

def State.answerLast (s : State) (l : Nat) (body : ReplyBody) : State :=
  s.setLink l ((s.linkAt l).answerLast (s.txContext l) body)

def State.answerWaiting (s : State) (l kind : Nat) (body : ReplyBody) : State :=
  s.setLink l ((s.linkAt l).answerWaiting (s.txContext l) kind body)

/-! ### Link supervision -/

/-- R147: the link as it goes LINK_DOWN; no STATUS frame is sent to it from then on (R164). -/
def Link.goDown (l : Link) : Link :=
  { l with up := false, timer := none, waiting := l.waiting.filter fun i => i != .status }

/-- R143: the holds of a lost link are marked orphaned; LOCAL_ORPHANED latches once if there is one. -/
def State.orphanHolds (s : State) (l : Nat) : State :=
  let channels := gen0 fun c =>
    if (s.chan c).holder == some l then { s.chan c with orphan := true } else s.chan c
  let s' := { s with channels := channels }
  if channelNumbers.any fun c => (s.chan c).holder == some l then
    s'.raiseDam .localOrphaned (s.active.link l).dam
  else s'

/-- R143: the orphan marks of a link's holds are cleared. -/
def State.clearOrphans (s : State) (l : Nat) : State :=
  let channels := gen0 fun c =>
    if (s.chan c).holder == some l then { s.chan c with orphan := false } else s.chan c
  { s with channels := channels }

/-- R147: the link goes LINK_DOWN and its notices are given. -/
def State.linkDown (s : State) (l : Nat) : State :=
  ((s.setLink l (s.linkAt l).goDown).abandonClaims l).orphanHolds l

/-- R164: at a return to LINK_UP a STATUS frame is sent if any unmasked kind is latched, whatever the flag. -/
def Link.greet (x : TxContext) (l : Link) : Link :=
  if (l.latched &&& ~~~l.mask) != 0#12 then Link.startTx x l.raiseStatus else l

/-- R147: the link becomes LINK_UP and its notices are given. -/
def State.linkUp (s : State) (l : Nat) : State :=
  let s1 := ((s.setLink l { s.linkAt l with up := true }).restoreClaims l).clearOrphans l
  s1.setLink l ((s1.linkAt l).greet (s1.txContext l))

/-- R145, R147: a valid frame is taken: the receiver hunts, the link timer is started or restarted, and a link that was down
becomes LINK_UP. -/
def State.superviseFrame (s : State) (l : Nat) : State :=
  let x := s.linkAt l
  let s' := s.setLink l
    { x with rx := [], timer := some (s.clock + (s.active.link l).timeout), lastFrame := some s.clock }
  if x.up then s' else s'.linkUp l

/-! ### Line break and transmitter -/

/-- R148, R165: the link after a line break: receiver and request buffer are reset, and a dropped READ_CONDITIONS reply already
formed clears the STATUS-pending flag. -/
def Link.break (x : TxContext) (l : Link) : Link :=
  let dropped := l.buffer.any fun e => e.kind == readConditionsKind && e.reply.isSome
  let l' := { l with rx := [], buffer := [], waiting := l.waiting.filter fun i => i != .first }
  if dropped then Link.checkStatus x { l' with statusPending := false } else l'

/-- R148, R81: a line break on link l. -/
def State.lineBreak (s : State) (l : Nat) : State :=
  let s' := s.setLink l ((s.linkAt l).break (s.txContext l))
  { s' with intake := s'.intake.filter fun e => e.link != l, leaving := s'.leaving.filter fun j => j != l }

/-- R149: the end of a transmitted frame lets the next waiting one begin. -/
def State.endFrame (s : State) (l : Nat) : State :=
  if (s.linkAt l).sending.isSome then
    s.setLink l (Link.startTx (s.txContext l) { s.linkAt l with sending := none })
  else s

/-! ### Intake drain -/

/-- R81: the check of a queued RELEASE again, at its drain. -/
def State.recheck (s : State) (e : IntakeEntry) : Option Status :=
  if s.linkClass e.link != e.cls || (e.cls == .station && (s.active.link e.link).dam != e.dam) then
    some .notPermitted
  else if !s.active.hasDam e.request.dam then some .badIndex
  else
    match e.request.kind with
    | .spill => none
    | .turbine u =>
      if s.active.inDam e.request.dam u && (s.active.channel u).kind == .turbine then none else some .badIndex

/-- R70, R81: one entry of the intake queue is drained and its reply formed. -/
def State.drainEntry (s : State) (e : IntakeEntry) : State :=
  let r := match s.recheck e with
    | some c => (s, ReplyBody.status c)
    | none => s.admitRequest e.link e.cls e.arrival e.request
  r.1.answerWaiting e.link releaseKind r.2

/-- R70: the intake queue is drained in arrival order. -/
def State.drain (s : State) : State := s.intake.foldl State.drainEntry { s with intake := [] }

end Sys2Proof.Machine
end

