-- ==== Sys2Proof/Machine/Modes.lean ====
section
/-! DEFINITION. The Mode Controller: reset (R168, R174), loading and activation (R18, R19, R20, R49, R113, R116), the settings
store (R172, R173), and the completion of a pass (R70). -/

namespace Sys2Proof.Machine

/-! ### Reset -/

/-- R168, R169, R174: LOADING is entered with a reset cause: every block takes its reset state. The settings store keeps its
image, which a write in flight has left invalid (R173); the trip lines are the field's; the waiting commands stay. -/
def State.enterLoading (s : State) (cause : ResetCause) : State :=
  { State.reset with
    pending := s.pending
    freeCount := s.freeCount
    resetCause := cause
    store := { image := s.store.image, checksum := s.store.checksum }
    tripLines := s.tripLines }

/-! ### Modes -/

/-- R168: the mode changes and MODE_CHANGED latches on every link. DEDUCED (log entry 33): a link that a frame brought up in LOADING
is up when LOADING ends, and is sent its STATUS frame then. -/
def State.changeMode (s : State) (m : Mode) : State := { s with mode := m }.raiseAll .modeChanged

/-- R26: every configured gauge's reading timer starts. -/
def State.startGauges (s : State) : State :=
  let gauges := gen1 fun g =>
    if s.gaugeConfigured g then { s.gauge g with timer := some (s.clock + s.gaugeTimeout g) } else s.gauge g
  { s with gauges := gauges }

/-- R168: the entry into HOLD from LOADING or CONFIG_FAULT: channels are brought up, gauge timers start, and the first pass
starts unless a trip found at a bring-up has already started it. -/
def State.firstHold (s : State) : State :=
  let s' := ((s.changeMode .hold).bringUpAll).startGauges
  if s'.inFlight then s' else s'.startPass

/-- R17, R18: a set becomes active in a part whose blocks are in their reset state. -/
def State.activateFresh (s : State) (t : TableSet) : State :=
  { s with active := t, working := t, limits := t.limits }.firstHold

/-- R18, R169: the load fails: both sets take the empty set and the mode goes to CONFIG_FAULT. -/
def State.failLoad (s : State) (r : LoadResult) : State :=
  { s with active := emptySet, working := emptySet, limits := emptySet.limits, loadResult := r }.changeMode .configFault

/-- R169: does the checksum field match the checksum of the image? A field never written or invalidated matches none. -/
def Store.checks (x : Store) : Bool :=
  match x.checksum with
  | some c => c == x.image.checksum
  | none => false

/-- R18, R169: the image read completes. -/
def State.completeLoad (s : State) : State :=
  if s.store.checks then
    match s.store.image.validate with
    | none => { s with loadResult := .valid }.activateFresh s.store.image
    | some e => s.failLoad (.failure e.1 e.2)
  else s.failLoad .checksumFailed

/-! ### Activation from SERVICE mode -/

/-- R75: the class that places claims of a group. -/
def ClaimGroup.placedBy : ClaimGroup → MasterClass
  | .flood => .flood
  | .dispatch => .dispatch
  | .station => .station

/-- R19: does an activation remove the claim? The sets are the old and the new one. -/
def Claim.removedBy (c : Claim) (old new : TableSet) : Bool :=
  !new.hasDam c.dam ||
    (match c.kind with
      | .turbine u => !(new.inDam c.dam u && (new.channel u).kind == .turbine)
      | .spill => false) ||
    (new.link c.owner).cls != c.group.placedBy ||
    (c.group == .station && (new.link c.owner).dam != (old.link c.owner).dam)

/-- R19, R97: the claims an activation removes, one by one. Targets are recomputed with the new tables later. -/
def State.removeAtActivation (s : State) (c : Claim) : State :=
  (((s.removeGrant c c.grant s.clock c.endIn).dropClaim c.handle).decayFor c).raiseOwner .claimEnded c.owner

/-- R19, R113: the plan of dam k in line with the new set. -/
def State.planAtActivation (s : State) (k : Nat) : DamPlan :=
  if s.active.hasDam k then
    { s.planAt k with entries :=
        (s.planAt k).entries.filter fun e => s.active.inDam k e.unit && (s.active.channel e.unit).kind == .turbine }
  else {}

/-- R113, R62: the plan of dam k replaced, its change of compensation applied to the published forecast. -/
def State.replan (s : State) (k : Nat) : State :=
  let plan := s.planAtActivation k
  (s.setPlan k plan).adjustConstant k ((plan.compensation : Int) - s.compensation k)

/-- R19, R113: the Release Allocator's part, the new set being active. -/
def State.activateAllocator (s : State) (old : TableSet) : State :=
  let gone := s.claims.filter fun c => c.removedBy old s.active
  [1, 2, 3, 4, 5, 6].foldl State.replan (gone.foldl State.removeAtActivation s)

/-- R19, R49: the Routing Unit's part. -/
def State.activateRouting (s : State) (old : TableSet) : State :=
  let dams := gen1 fun k =>
    if !s.active.hasDam k then {}
    else if !old.hasDam k then { outflow := 0, volume := 0, mark := s.clock }
    else s.damAt k
  let reaches := gen1 fun k => if s.active.hasReach k then s.reachAt k else {}
  { s with dams := dams, reaches := reaches }

/-- R19: a gauge in line with the new set. -/
def State.gaugeAtActivation (s : State) (old : TableSet) (g : Nat) : Gauge :=
  let was := if g == tailGauge then old.cascade.tailPresent else old.hasDam g
  if !s.gaugeConfigured g then {}
  else if !was then { timer := some (s.clock + s.gaugeTimeout g) }
  else s.gauge g

/-- R19: a pool in line with the new set: cleared beyond the new N; a changed record recomputes the basis of a GOOD pool and
clamps that of a LOST one. -/
def State.poolAtActivation (s : State) (old : TableSet) (k : Nat) : Pool :=
  let r := s.active.pool k
  let p := s.poolAt k
  if !s.active.hasDam k then {}
  else if !old.hasDam k then {}
  else if old.pool k == r then p
  else
    match (s.gauge k).state with
    | .good => { p with basis := (s.gauge k).accepted.map r.storageAt }
    | .lost => { p with basis := p.basis.map fun b => r.clampStorage b }
    | .await => p

/-- R19, R34: the Gauge Interface's and Balance Unit's part; a recomputed basis is evaluated against its band. -/
def State.activateGauges (s : State) (old : TableSet) : State :=
  let gauges := gen1 fun g => s.gaugeAtActivation old g
  let pools := gen1 fun k => s.poolAtActivation old k
  let s' := { s with gauges := gauges, pools := pools }
  (s.active.damNumbers.filter fun k => old.hasDam k && old.pool k != s.active.pool k).foldl State.evaluateBand s'

/-- R116: is the channel placed OFFLINE: no longer configured, newly configured, or its dam or kind changed? -/
def placedOffline (old new : TableSet) (c : Nat) : Bool :=
  match old.damOf c, new.damOf c with
  | none, none => false
  | some j, some k => j != k || (old.channel c).kind != (new.channel c).kind
  | _, _ => true

/-- R116: a channel placed OFFLINE. DEDUCED (log entry 30): its target flow and its target-shortfall mark, which the steps of R116 do
not name, go with its target. -/
def State.placeOffline (s : State) (old : TableSet) (c : Nat) : State :=
  let s' := s.setActualIn old c 0
  s'.setChan c { command := (s'.chan c).command, commandCount := (s'.chan c).commandCount }

/-- R19, R142: a hold whose holder is no longer a STATION link of the channel's dam is cleared. -/
def State.dropForeignHold (s : State) (c : Nat) : State :=
  match (s.chan c).holder with
  | some l => if s.isStationOf l (s.damOfChannel c) then s else s.setChan c (s.chan c).endHold
  | none => s

/-- R116: the Gate Channel Controller's part. -/
def State.activateChannels (s : State) (old : TableSet) : State :=
  let s1 := (channelNumbers.filter (placedOffline old s.active)).foldl (fun t c => t.placeOffline old c) s
  let s2 := channelNumbers.foldl State.dropForeignHold s1
  let s3 := (channelNumbers.filter fun c => (s.active.damOf c).isSome).foldl State.reformFlow s2
  s.active.damNumbers.foldl State.recompute s3

/-- R161: the band flags of pools beyond the new N are set back to held. -/
def State.activateBands (s : State) : State :=
  let keep := (List.range 6).foldl (fun b k => if s.active.hasDam (k + 1) then b ||| bandBit (k + 1) else b) 0#6
  { s with links := gen1 fun l => { s.linkAt l with band := (s.linkAt l).band &&& keep } }

/-- R19, R71: activation from SERVICE mode: every block is brought into line with the working set, which becomes active; the
mode goes to HOLD, channels left OFFLINE are brought up, and an early pass is requested. -/
def State.activateService (s : State) : State :=
  let old := s.active
  let new := s.working
  let s0 :=
    { s with
      active := new, limits := new.limits
      forecast := if new.cascade.damCount == old.cascade.damCount then s.forecast else none }
  let s1 := (((s0.activateAllocator old).activateRouting old).activateGauges old).activateChannels old
  ((s1.activateBands.changeMode .hold).bringUpAll).requestPass

/-! ### LEAVE_SERVICE waiting for a publish -/

/-- R20: a waiting LEAVE_SERVICE at its turn: the mode and the working set are checked again. -/
def State.makeWaiting (s : State) (l : Nat) : State :=
  if s.mode != .service then s.answerWaiting l leaveServiceKind (.status .wrongMode)
  else
    match s.working.validate with
    | some e => s.answerWaiting l leaveServiceKind (.badTable e.1 e.2)
    | none => s.activateService.answerWaiting l leaveServiceKind (.status .ok)

/-- R20, R70: the activations waiting for the publish are made in turn. -/
def State.makeActivations (s : State) : State := s.leaving.foldl State.makeWaiting { s with leaving := [] }

/-- R70, R53: the again flag is examined: a new pass starts, or the pass is IDLE. -/
def State.examineAgain (s : State) : State :=
  if s.pass.again then { s with pass := { s.pass with again := false, state := .idle } }.startPass
  else { s with pass := { s.pass with state := .idle } }

/-- R70: stage 7. -/
def State.completionStage (s : State) : State :=
  (((s.active.damNumbers.foldl State.recompute s).drain).makeActivations).examineAgain

/-! ### Settings store -/

/-- R172: a settings write begins: the snapshot is taken and the image's checksum is invalidated. -/
def State.beginStore (s : State) : State :=
  { s with store := { s.store with writing := some (.invalidating, s.active), checksum := none } }

/-- R172: a step of the write completes and the next begins. -/
def Store.advance (x : Store) : Store :=
  match x.writing with
  | some (.invalidating, t) => { x with writing := some (.writingImage, t) }
  | some (.writingImage, t) => { x with writing := some (.writingChecksum, t), image := t }
  | some (.writingChecksum, _) => x
  | none => x

/-- R169, R173: the last step completes, with the checksum of the new image written. -/
def Store.complete (x : Store) : Store :=
  match x.writing with
  | some (.writingChecksum, _) => { x with writing := none, checksum := some x.image.checksum, result := .done }
  | _ => x

/-- R173: the store reports a failure at any step. -/
def State.failStore (s : State) : State :=
  if s.store.writing.isSome then
    { s with store := { s.store with writing := none, result := .failed } }.offer .storeFailed 0 none none
  else s

end Sys2Proof.Machine
end

