-- ==== Sys2Proof/Machine/Operands.lean ====
section
/-! DEFINITION. The operands of a request: its kind byte, the modes and classes that may send it (R151, R152), the mapping
of its indices (R153), and its field values (R154). -/

namespace Sys2Proof.Machine

/-- A request as a frame carries it (R151). The record kind of a query stays a code, and a kind that names no request stays a
byte. -/
inductive Request where
  | ping
  | release (body : RawRelease)
  | withdraw (handle : Nat)
  | declareInflow (pool : Nat) (rates : List Nat)
  | takeLocal (channel : Nat)
  | setOpening (channel opening : Nat)
  | releaseLocal (channel : Nat)
  | clearFault (channel : Nat)
  | resetTrip (channel : Nat)
  | bringUp (channel : Nat)
  | query (kind index : Nat)
  | readConditions
  | setMask (mask : Nat)
  | resume
  | hold
  | enterService
  | leaveService
  | writeTable (record : RawRecord) (index : Nat)
  | storeSettings
  | restart
  | unknown (kind : Nat)
  deriving DecidableEq, Repr

/-- R151: the kind code of a request; an unknown kind keeps its own. -/
def Request.code : Request → Nat
  | .ping => 0x01
  | .release _ => 0x02
  | .withdraw _ => 0x03
  | .declareInflow _ _ => 0x04
  | .takeLocal _ => 0x05
  | .setOpening _ _ => 0x06
  | .releaseLocal _ => 0x07
  | .clearFault _ => 0x08
  | .resetTrip _ => 0x09
  | .bringUp _ => 0x0A
  | .query _ _ => 0x0B
  | .readConditions => 0x0C
  | .setMask _ => 0x0D
  | .resume => 0x0E
  | .hold => 0x0F
  | .enterService => 0x10
  | .leaveService => 0x11
  | .writeTable _ _ => 0x12
  | .storeSettings => 0x13
  | .restart => 0x14
  | .unknown k => k

/-- R151, R146: the kind byte of the reply to a request. DEDUCED (log entry 34): an unknown kind has 0xFF in a BUSY reply too. -/
def Request.replyKind : Request → Nat
  | .unknown _ => unknownReplyKind
  | r => Sys2Proof.Machine.replyKind r.code

/-! ### Mode and class (R151, R152) -/

/-- R151, the mode column, for HOLD, COORDINATE and SERVICE. -/
def Request.takenRunning (m : Mode) : Request → Bool
  | .takeLocal _ => m != .service
  | .resume => m == .hold
  | .hold => m == .coordinate
  | .enterService => m == .hold
  | .leaveService => m == .service
  | .writeTable _ _ => m == .service
  | .storeSettings => m != .coordinate
  | _ => true

/-- R152: what LOADING takes. -/
def Request.takenLoading : Request → Bool
  | .ping | .query _ _ | .readConditions | .restart => true
  | _ => false

/-- R152: what CONFIG_FAULT takes; a QUERY from a link that is not SERVICE is refused WRONG_MODE. -/
def Request.takenConfigFault (cls : MasterClass) : Request → Bool
  | .ping | .readConditions | .writeTable _ _ | .leaveService | .restart => true
  | .query _ _ => cls == .service
  | _ => false

/-- R150 check 1: is the request taken in the present mode? -/
def Request.takenIn (r : Request) (m : Mode) (cls : MasterClass) : Bool :=
  match m with
  | .loading => r.takenLoading
  | .configFault => r.takenConfigFault cls
  | _ => r.takenRunning m

/-- R150 check 2: may a link of this class send the request? -/
def Request.allowedFrom (cls : MasterClass) : Request → Bool
  | .release _ => cls != .service
  | .declareInflow _ _ | .resume | .hold => cls == .flood || cls == .service
  | .takeLocal _ | .setOpening _ _ => cls == .station
  | .releaseLocal _ | .clearFault _ | .resetTrip _ => cls == .station || cls == .service
  | .bringUp _ | .enterService | .leaveService | .writeTable _ _ | .storeSettings | .restart => cls == .service
  | _ => true

/-! ### Codes -/

/-- R79, R158: is a RELEASE kind code 0 or 1, and are flag bits 2 to 7 zero? -/
def releaseCodesOk (b : RawRelease) : Bool := b.kind ≤ 1 && b.flags < 4

/-- R158: a mask with any of bits 12 to 15 set is refused BAD_VALUE. -/
def maskOk (mask : Nat) : Bool := mask < 4096

/-- R150 check 3: does every code name a value, and is every undefined flag bit 0? -/
def Request.codesOk : Request → Bool
  | .release b => releaseCodesOk b
  | .query k _ => 1 ≤ k && k ≤ 8
  | .setMask m => maskOk m
  | .writeTable r _ => (typedRecord r).isSome
  | _ => true

/-! ### Indices -/

/-- R153: a channel index as the link addresses it: relative to its dam's first channel from a STATION link, global from any
other. None names no configured channel of the link. -/
def State.mapChannel (s : State) (l i : Nat) : Option Nat :=
  if s.linkClass l == .station then
    let k := (s.active.link l).dam
    if s.active.hasDam k && i < (s.active.dam k).channelCount && i < 8 then some ((s.active.dam k).firstChannel + i)
    else none
  else if i < 32 && (s.active.damOf i).isSome then some i
  else none

/-- The global number of an index that has passed its check. -/
def State.channelOf (s : State) (l i : Nat) : Nat := (s.mapChannel l i).getD 0

/-- R156: the index range of a query by its record kind. The claim table is configured while the part runs (R152). -/
def State.queryIndexOk (s : State) (l kind i : Nat) : Bool :=
  match kind with
  | 1 => s.mode.running && i < Config.claimSlots
  | 2 => s.active.hasDam i
  | 3 => s.active.hasDam i
  | 4 => (s.mapChannel l i).isSome
  | 5 => s.active.hasReach i
  | 6 => isLink i
  | _ => i == 0

/-- R150 check 4: does every index name a configured item? -/
def State.indexOk (s : State) (l : Nat) : Request → Bool
  | .declareInflow p _ => s.active.hasDam p
  | .takeLocal c => (s.mapChannel l c).isSome
  | .setOpening c _ => (s.mapChannel l c).isSome
  | .releaseLocal c => (s.mapChannel l c).isSome
  | .clearFault c => (s.mapChannel l c).isSome
  | .resetTrip c => (s.mapChannel l c).isSome
  | .bringUp c => (s.mapChannel l c).isSome
  | .query k i => s.queryIndexOk l k i
  | .writeTable r i =>
      match typedRecord r with
      | some t => t.indexOk i
      | none => false
  | _ => true

/-- R150: the first of the Link Interface's checks that fails, in its order. An unknown kind is answered BAD_VALUE in every
mode (R146). -/
def State.refusal (s : State) (l : Nat) (r : Request) : Option Status :=
  match r with
  | .unknown _ => some .badValue
  | _ =>
    if !r.takenIn s.mode (s.linkClass l) then some .wrongMode
    else if !r.allowedFrom (s.linkClass l) then some .notPermitted
    else if !r.codesOk then some .badValue
    else if !s.indexOk l r then some .badIndex
    else none

/-! ### The fields of a RELEASE (R79, R158) -/

def hasMinimum (b : RawRelease) : Bool := b.flags % 2 == 1
def hasDuration (b : RawRelease) : Bool := b.flags / 2 % 2 == 1

/-- R82: m is 1 when no minimum is given. -/
def minimumFlow (b : RawRelease) : Nat := if hasMinimum b then b.minimum else 1

/-- R79: may a link place this kind at this dam? -/
def State.mayPlace (s : State) (l : Nat) (b : RawRelease) : Bool :=
  match s.linkClass l with
  | .dispatch => b.kind == 0
  | .flood => b.kind == 1
  | .station => (s.active.link l).dam == b.dam
  | .service => false

/-- R79, R153: the kind of the claim, its unit mapped; none where the unit is no TURBINE channel of the dam. The unit field
of a SPILL claim is not examined. -/
def State.releaseKindOf (s : State) (l : Nat) (b : RawRelease) : Option ClaimKind :=
  if b.kind == 1 then some .spill
  else
    match s.mapChannel l b.unit with
    | some u => if s.active.inDam b.dam u && (s.active.channel u).kind == .turbine then some (.turbine u) else none
    | none => none

/-- R79: are the values within their ranges? -/
def releaseValuesOk (b : RawRelease) : Bool :=
  b.urgency ≤ 3 && 1 ≤ b.requested && b.requested ≤ Config.maxFlow &&
    (!hasMinimum b || (1 ≤ b.minimum && b.minimum ≤ b.requested)) &&
    b.offset ≤ 86400 && (!hasDuration b || (1 ≤ b.duration && b.duration ≤ 604800))

/-- The fields of an accepted RELEASE. -/
def toClaimRequest (b : RawRelease) (kind : ClaimKind) : ClaimRequest :=
  { dam := b.dam, kind := kind, urgency := b.urgency, requested := b.requested, minimum := minimumFlow b
    offset := b.offset, duration := if hasDuration b then some b.duration else none }

/-- R79: the Release Allocator's checks in their order. -/
def State.checkRelease (s : State) (l : Nat) (b : RawRelease) : Except Status ClaimRequest :=
  if !s.mayPlace l b then .error .notPermitted
  else if !s.active.hasDam b.dam then .error .badIndex
  else
    match s.releaseKindOf l b with
    | none => .error .badIndex
    | some kind => if releaseValuesOk b then .ok (toClaimRequest b kind) else .error .badValue

/-! ### Other fields -/

/-- R58: the twelve rates of a declaration: the given ones from bin 1, the last of them beyond, each at most 60,000. -/
def declaredRates (rates : List Nat) : Bins Nat :=
  gen1 fun j => min Config.maxFlow (rates.getD (j - 1) (rates.getLast?.getD 0))

/-- R139: an opening above 1000 is taken as 1000. -/
def clampOpening (o : Nat) : Nat := min 1000 o

end Sys2Proof.Machine
end

