-- ==== Sys2Proof/Machine/Queries.lean ====
section
/-! DEFINITION. The records a QUERY returns (R47, R72, R98, R114, R134, R144, R156, R167). -/

namespace Sys2Proof.Machine

/-- R98: the list position of a claim. DESIGN CHOICE (log entry 32): counted from 0. -/
def State.positionOf (s : State) (c : Claim) : Nat := s.claims.findIdx fun d => d.handle == c.handle

/-- R98: the record of a claim as it stands. -/
def State.claimView (s : State) (c : Claim) : ClaimView :=
  { handle := c.handle, position := s.positionOf c, owner := c.owner, group := c.group, urgency := c.urgency
    dam := c.dam, kind := c.kind, requested := c.requested, minimum := c.minimum, start := c.start, finish := c.finish
    deadline := c.deadline, withdrawn := c.withdrawn != .clear, state := c.state, grant := c.grant, held := c.held }

/-- R98: a claim slot, empty with its generation count or occupied. -/
def State.claimRecord (s : State) (slot : Nat) : QueryRecord :=
  match s.claimAt slot with
  | some c => .claim (s.claimView c)
  | none => .emptySlot slot (get0 s.generations slot)

/-- R72: a storage clamped to 0 to 4,000,000,000, with its clipped flag. -/
def clipStorage (x : Int) : Nat × Bool :=
  (min Config.maxStorage x.toNat, x < 0 || (Config.maxStorage : Int) < x)

/-- R72: a peak rate clamped to 60,000, with its clipped flag. -/
def clipPeak (x : Int) : Nat × Bool := (min Config.maxFlow x.toNat, decide ((Config.maxFlow : Int) < x))

/-- R72: the published forecast of one pool with the rates in force. -/
def State.forecastView (s : State) (k : Nat) (f : Forecast) : ForecastView :=
  { start := f.start
    bin := f.bin
    storage := gen1 fun b => clipStorage ((f.pool k).F b)
    peak := gen1 fun b => clipPeak ((f.pool k).P b)
    rates := (s.poolAt k).rates }

/-- R72: the pool forecast record. -/
def State.poolView (s : State) (k : Nat) : PoolView :=
  let p := s.poolAt k
  { forecast := s.forecast.map (s.forecastView k)
    passState := s.pass.state
    again := s.pass.again
    declared := p.declared.isSome
    basis := if (s.gauge k).state == .await then none else p.basis
    passBasis := p.passBasis.map fun b => (b.storage, b.time)
    gauge := (s.gauge k).state
    reckoning := p.reckoning }

/-- R114: the dam plan record. -/
def State.planView (s : State) (k : Nat) : PlanView :=
  let p := s.planAt k
  { forced := p.forced
    entries := p.entries.map fun e => (e.unit, e.flow, s.heldSum e.unit)
    compensation := p.compensation
    unmanaged := s.unmanaged k
    record := p.record }

/-- R134, R144: the channel record. -/
def State.channelView (s : State) (c : Nat) : ChannelView :=
  let x := s.chan c
  let kind := (s.active.channel c).kind
  { kind := kind, dam := s.damOfChannel c, state := x.state, source := x.source, holder := x.holder
    target := x.target, targetFlow := x.targetFlow, setpoint := x.setpoint, measured := x.measured
    actual := x.actual, capacity := s.capacity c, head := s.chanHead c, shortfall := x.shortfall
    waitMark := x.waitMark, faultKind := x.faultKind
    tripInput := if kind == .turbine then some (s.tripLine c) else none
    localOpening := x.localOpening, orphan := x.orphan }

/-- R47: the reach queue summary, the accumulator brought up for the report alone. -/
def State.reachView (s : State) (k : Nat) : ReachView :=
  let r := s.reachAt k
  let rec_ := s.active.reach k
  let d := (s.damAt k).bringUp s.clock
  { count := r.queue.length, coarsened := r.coarsened, travel := rec_.travel, deadband := rec_.deadband
    oldest := r.queue.head?, newest := r.queue.getLast?, cut := r.cut, arrived := r.arrived
    outflow := d.outflow, volume := d.volume }

/-- R156: the channels a link holds, by global number, each with its orphan mark. DESIGN CHOICE (log entry 36): in ascending order. -/
def State.holdsOf (s : State) (l : Nat) : List (Nat × Bool) :=
  (channelNumbers.filter fun c => (s.chan c).holder == some l).map fun c => (c, (s.chan c).orphan)

/-- R156: the link state record. -/
def State.linkView (s : State) (l : Nat) : LinkView :=
  let x := s.linkAt l
  let r := s.active.link l
  let owned := s.claims.filter fun c => c.owner == l
  { cls := r.cls
    dam := if r.cls == .station then some r.dam else none
    up := x.up
    lastFrame := x.lastFrame
    timeout := r.timeout
    abandon := r.abandon
    buffered := x.buffer.length
    queued := (s.intake.filter fun e => e.link == l).length
    statusPending := x.statusPending
    mask := x.mask
    owned := owned.length
    abandoned := (owned.filter fun c => c.deadline.isSome).length
    holds := s.holdsOf l }

/-- R156: the family code and the part code. -/
def familyCode : Nat := 0x41
def partCode : Nat := 0x36

/-- R156: the identity record. -/
def State.identityView (s : State) : IdentityView :=
  { family := familyCode, part := partCode, cause := s.resetCause, loadResult := s.loadResult, mode := s.mode
    writing := s.store.writing.isSome, result := s.store.result, damCount := s.damCount, clock := s.clock }

/-- R156: the record of a query of a record kind and an index that has passed its check. -/
def State.queryRecord (s : State) (l kind i : Nat) : QueryRecord :=
  match kind with
  | 1 => s.claimRecord i
  | 2 => .poolForecast (s.poolView i)
  | 3 => .damPlan (s.planView i)
  | 4 => .channel (s.channelView (s.channelOf l i))
  | 5 => .reach (s.reachView i)
  | 6 => .linkState (s.linkView i)
  | 7 => .capture s.capture
  | _ => .identity s.identityView

/-- R156, R167: what a query leaves: one of the fault capture empties it. -/
def State.afterQuery (s : State) (kind : Nat) : State := if kind == 7 then { s with capture := none } else s

end Sys2Proof.Machine
end

