-- ==== Sys2Proof/Machine/Requests.lean ====
section
/-! DEFINITION. What the owning block of each request does once the checks of R150 have passed, and the taking of a valid frame
(R149). Each effect gives the state after it and the reply, absent while the request stays in progress. -/

namespace Sys2Proof.Machine

/-- An effect with its reply. -/
abbrev Effect := State × Option ReplyBody

/-- A request refused by its owning block has no effect. -/
def State.refuse (s : State) (c : Status) : Effect := (s, some (.status c))

/-- A request that has made its effect is answered OK. -/
def State.ok (s : State) : Effect := (s, some (.status .ok))

/-! ### Release claims -/

/-- R80: does an accepted RELEASE enter the intake queue? -/
def State.queuesRelease (s : State) : Bool :=
  s.inFlight ||
    match s.forecast with
    | none => true
    | some f => s.mode == .coordinate && f.horizon ≤ s.clock

/-- R80, R81: the entry of an accepted RELEASE in the intake queue. -/
def State.intakeEntry (s : State) (l tag : Nat) (r : ClaimRequest) : IntakeEntry :=
  { link := l, tag := tag, request := r, arrival := s.clock, cls := s.linkClass l, dam := (s.active.link l).dam }

/-- R79 to R82: RELEASE. -/
def State.doRelease (s : State) (l tag : Nat) (b : RawRelease) : Effect :=
  match s.checkRelease l b with
  | .error c => s.refuse c
  | .ok r =>
    if s.queuesRelease then ({ s with intake := s.intake ++ [s.intakeEntry l tag r] }, none)
    else
      let e := s.admitRequest l (s.linkClass l) s.clock r
      (e.1, some e.2)

/-- R90: a claim removed at once, its release leaving the published forecast; a SERVICE link's removal latches CLAIM_ENDED for
the owner (R97). -/
def State.withdrawNow (s : State) (l : Nat) (c : Claim) : State :=
  let s' := (s.removeGrant c c.grant s.clock c.endIn).removeClaim c
  if s.linkClass l == .service && c.owner != l then s'.raiseOwner .claimEnded c.owner else s'

/-- R90: the withdrawn mark of a claim, with who set it; a mark that stands is left. -/
def Claim.mark (c : Claim) (l : Nat) : Claim :=
  if c.withdrawn == .clear then { c with withdrawn := if c.owner == l then .byOwner else .byService } else c

/-- R90: WITHDRAW. -/
def State.doWithdraw (s : State) (l handle : Nat) : Effect :=
  match s.claimOf handle with
  | none => s.refuse .noSuchClaim
  | some c =>
    if c.owner != l && s.linkClass l != .service then s.refuse .notPermitted
    else if s.inFlight then (s.updateClaim handle fun c => c.mark l).ok
    else (s.withdrawNow l c).ok

/-! ### Inflow -/

/-- R58: DECLARE_INFLOW. -/
def State.doDeclare (s : State) (k : Nat) (rates : List Nat) : Effect :=
  ((s.setPool k { s.poolAt k with declared := some (declaredRates rates) }).requestPass).ok

/-! ### Local operation -/

/-- R137, R139: a held channel with its local opening, target and target flow set, and in READY or MOVING as setpoint and
target require (R136). -/
def Channel.openAt (x : Channel) (opening flow : Nat) : Channel :=
  (Channel.aim { x with localOpening := some opening } opening flow false).settle

/-- R137: a hold takes effect with a local opening. -/
def Channel.takeHold (x : Channel) (l opening flow : Nat) : Channel :=
  Channel.openAt { x with holder := some l, orphan := false } opening flow

/-- R137: the local opening of a new hold is the present setpoint. DESIGN CHOICE (log entry 2): a channel in FAULT without a
setpoint takes a free value. -/
def State.holdOpening (s : State) (c : Nat) : Nat :=
  (s.chan c).setpoint.getD (Config.freeOpening s.freeCount % 1001)

/-- The count of free values taken, after a hold of channel c. -/
def State.countFree (s : State) (c : Nat) : State :=
  if (s.chan c).setpoint.isNone then { s with freeCount := s.freeCount + 1 } else s

/-- R137, R136: the hold of link l on channel c takes effect. -/
def State.takeHold (s : State) (l c : Nat) : State :=
  let o := s.holdOpening c
  let x := (s.chan c).takeHold l o ((s.active.channel c).flow o (s.chanHead c))
  (((s.countFree c).handover c x)).requestPass

/-- R137, R138: TAKE_LOCAL. -/
def State.doTake (s : State) (l c : Nat) : Effect :=
  match (s.chan c).state, (s.chan c).holder with
  | .tripped, _ => s.refuse .wrongState
  | _, some h => if h == l then s.ok else s.refuse .heldByOther
  | .offline, none => s.refuse .wrongState
  | .bringup, none => s.refuse .wrongState
  | .ready, none => (s.takeHold l c).ok
  | .moving, none => (s.takeHold l c).ok
  | .fault, none => (s.takeHold l c).ok

/-- R139: the holder sets the local opening. -/
def State.setLocal (s : State) (c opening : Nat) : State :=
  s.setChan c ((s.chan c).openAt opening ((s.active.channel c).flow opening (s.chanHead c)))

/-- R139: SET_OPENING. -/
def State.doSetOpening (s : State) (l c opening : Nat) : Effect :=
  match (s.chan c).holder with
  | none => s.refuse .wrongState
  | some h =>
    if h != l then s.refuse .heldByOther
    else
      match (s.chan c).state with
      | .ready => (s.setLocal c (clampOpening opening)).ok
      | .moving => (s.setLocal c (clampOpening opening)).ok
      | .fault => (s.setLocal c (clampOpening opening)).ok
      | .bringup => s.refuse .wrongState
      | .tripped => s.refuse .wrongState
      | .offline => s.refuse .wrongState

/-- R140, R142: RELEASE_LOCAL. -/
def State.doReleaseLocal (s : State) (l c : Nat) : Effect :=
  match (s.chan c).holder with
  | none => s.refuse .wrongState
  | some h =>
    if h == l || s.linkClass l == .service then ((s.handover c (s.chan c).endHold).requestPass).ok
    else s.refuse .heldByOther

/-! ### Fault, trip and bring-up -/

/-- R131: CLEAR_FAULT. -/
def State.doClearFault (s : State) (c : Nat) : Effect :=
  if (s.chan c).state == .fault then (s.startBringup c).ok else s.refuse .wrongState

/-- R133: RESET_TRIP. -/
def State.doResetTrip (s : State) (c : Nat) : Effect :=
  if (s.chan c).state == .tripped && !s.tripLine c then (s.startBringup c).ok else s.refuse .wrongState

/-- R119: BRING_UP. -/
def State.doBringUp (s : State) (c : Nat) : Effect :=
  if (s.chan c).state == .bringup && (s.chan c).waitMark then (s.enterReady c).ok else s.refuse .wrongState

/-! ### Conditions -/

/-- R165: the reply of READ_CONDITIONS, formed from the link's latched set and the band flags of the pools in its scope (R158). -/
def State.conditionsOf (s : State) (l : Nat) : ReplyBody :=
  .conditions (s.linkAt l).latched ((s.linkAt l).band &&& (s.txContext l).scope)

/-- R165: READ_CONDITIONS empties the latched set and returns every band flag to held as its reply is formed. -/
def State.doReadConditions (s : State) (l : Nat) : Effect :=
  (s.setLink l { s.linkAt l with latched := 0, band := 0 }, some (s.conditionsOf l))

/-- R163, R164: SET_MASK. -/
def State.doSetMask (s : State) (l mask : Nat) : Effect :=
  (s.setLink l (Link.checkStatus (s.txContext l) { s.linkAt l with mask := BitVec.ofNat 12 mask })).ok

/-! ### Modes, tables and the settings store -/

/-- R170: RESUME. -/
def State.doResume (s : State) : Effect := ((s.changeMode .coordinate).requestPass).ok

/-- R170: the HOLD request. -/
def State.doHold (s : State) : Effect := ((s.changeMode .hold).requestPass).ok

/-- R171: ENTER_SERVICE. -/
def State.doEnterService (s : State) : Effect := (s.changeMode .service).ok

/-- R171, R18 to R20: LEAVE_SERVICE. From CONFIG_FAULT the activation is that of a load; from SERVICE it waits for a pass in
flight to publish. -/
def State.doLeaveService (s : State) (l : Nat) : Effect :=
  match s.working.validate with
  | some e => (s, some (.badTable e.1 e.2))
  | none =>
    if s.mode == .configFault then (s.activateFresh s.working).ok
    else if s.inFlight then ({ s with leaving := s.leaving ++ [l] }, none)
    else s.activateService.ok

/-- R14: WRITE_TABLE. -/
def State.doWriteTable (s : State) (r : RawRecord) (i : Nat) : Effect :=
  match typedRecord r with
  | some t => { s with working := s.working.write t i }.ok
  | none => s.refuse .badValue

/-- R172: STORE_SETTINGS. -/
def State.doStore (s : State) : Effect :=
  if s.store.writing.isSome then s.refuse .busy else s.beginStore.ok

/-! ### The owning block (R150 check 5) -/

/-- R150: the request is handed to its owning block. A channel index is the one mapped (R153). An unknown kind and RESTART have
no owner's reply. -/
def State.handOn (s : State) (l tag : Nat) : Request → Effect
  | .ping => s.ok
  | .release b => s.doRelease l tag b
  | .withdraw h => s.doWithdraw l h
  | .declareInflow k rates => s.doDeclare k rates
  | .takeLocal i => s.doTake l (s.channelOf l i)
  | .setOpening i o => s.doSetOpening l (s.channelOf l i) o
  | .releaseLocal i => s.doReleaseLocal l (s.channelOf l i)
  | .clearFault i => s.doClearFault (s.channelOf l i)
  | .resetTrip i => s.doResetTrip (s.channelOf l i)
  | .bringUp i => s.doBringUp (s.channelOf l i)
  | .query k i => (s.afterQuery k, some (.record (s.queryRecord l k i)))
  | .readConditions => s.doReadConditions l
  | .setMask m => s.doSetMask l m
  | .resume => s.doResume
  | .hold => s.doHold
  | .enterService => s.doEnterService
  | .leaveService => s.doLeaveService l
  | .writeTable r i => s.doWriteTable r i
  | .storeSettings => s.doStore
  | .restart => (s.enterLoading .restart, none)
  | .unknown _ => s.refuse .badValue

/-! ### A valid frame -/

/-- R149: a request joins the buffer of its link at the end. -/
def Link.join (x : Link) (kind tag : Nat) : Link :=
  { x with buffer := x.buffer ++ [{ kind := kind, tag := tag }] }

/-- R149: is the request buffer of the link full? -/
def Link.full (x : Link) : Bool := Config.bufferPlaces ≤ x.buffer.length

/-- R149: a valid frame that finds the buffer full is answered BUSY at once, with its tag, and has no other effect. DEDUCED (log entry
37): on a busy transmitter the BUSY reply takes its turn behind the frames that are ready, the formed reply of the first buffered request
among them; it is ahead of the replies that wait for their turn in the buffer. -/
def State.answerBusy (s : State) (l kind tag : Nat) : State :=
  s.setLink l (Link.ready (s.txContext l) (.busy kind tag) (s.linkAt l))

/-- R149, R150: the result of a buffered request: the checks in their order, then its owning block. -/
def State.decideRequest (s : State) (l tag : Nat) (r : Request) : Effect :=
  match s.refusal l r with
  | some c => s.refuse c
  | none => s.handOn l tag r

/-- R149: the reply of a request, once its owning block has finished with it. -/
def State.conclude (e : Effect) (l : Nat) : State :=
  match e.2 with
  | some b => e.1.answerLast l b
  | none => e.1

/-- R147, R149, R150: a valid frame is taken on link l. -/
def State.takeFrame (s : State) (l tag : Nat) (r : Request) : State :=
  let s1 := s.superviseFrame l
  if (s1.linkAt l).full then s1.answerBusy l r.replyKind tag
  else State.conclude ((s1.setLink l ((s1.linkAt l).join r.replyKind tag)).decideRequest l tag r) l

end Sys2Proof.Machine
end

