-- ==== Sys2Proof/Machine/Wire.lean ====
section
/-! DEFINITION. The characters of a master link: the CRC and the envelope (R146, R158), the receiver (R145), the bodies of the
requests (R151, R154, R158), and the frames the part sends (R156 to R159). -/

namespace Sys2Proof.Machine

/-! ### Bytes -/

/-- R158: the marker of a frame. -/
def marker : Byte := 0x5A

/-- R146: one bit of the CRC. -/
def crcBit (c : BitVec 16) : BitVec 16 := if c.msb then (c <<< 1) ^^^ 0x1021#16 else c <<< 1

/-- R146: one byte of the CRC, its most significant bit first. -/
def crcByte (c : BitVec 16) (b : Byte) : BitVec 16 :=
  let c := c ^^^ (b.setWidth 16 <<< 8)
  crcBit (crcBit (crcBit (crcBit (crcBit (crcBit (crcBit (crcBit c)))))))

/-- R146: CRC-16, polynomial 0x1021, initial value 0xFFFF, no reflection and no inversion. -/
def crc16 (l : List Byte) : BitVec 16 := l.foldl crcByte 0xFFFF#16

/-- A number from bytes, the high byte first. -/
def bigEndian (l : List Byte) : Nat := l.foldl (fun n b => n * 256 + b.toNat) 0

/-! ### The bodies of the requests -/

/-- Fields of the given widths, which must use the bytes up. -/
def splitFields : List Nat → List Byte → Option (List Nat)
  | [], [] => some []
  | [], _ => none
  | w :: ws, l =>
    if l.length < w then none else (splitFields ws (l.drop w)).map fun r => bigEndian (l.take w) :: r

/-- R154: the record of a known kind from its fields. -/
def recordOf (kind : Nat) (f : List Nat) : RawRecord :=
  let at_ := fun i => f.getD i 0
  match kind with
  | 1 => .cascade (at_ 0) (at_ 1) (at_ 2) (at_ 3)
  | 2 => .dam (at_ 0) (at_ 1) (at_ 2) (at_ 3) (at_ 4)
  | 3 => .pool (gen0 fun i => (at_ (2 * i), at_ (2 * i + 1))) (at_ 18) (at_ 19) (at_ 20) (at_ 21) (at_ 22) (at_ 23)
  | 4 => .reach (at_ 0) (at_ 1)
  | 5 =>
    .channel (at_ 0) (gen0 fun i => at_ (1 + i)) (gen0 fun i => (at_ (10 + 2 * i), at_ (11 + 2 * i)))
      (at_ 20) (at_ 21) (at_ 22) (at_ 23) (at_ 24) (at_ 25) (at_ 26) (at_ 27) (at_ 28)
  | 6 => .link (at_ 0) (at_ 1) (at_ 2) (at_ 3)
  | 7 => .precedence (at_ 0) (at_ 1)
  | _ => .pass (at_ 0) (at_ 1)

/-- R154: the body of a WRITE_TABLE; a record-kind code that names no record kind leaves the length unexamined. -/
def writeTableBody : List Byte → Option Request
  | [] => none
  | k :: rest =>
    if 1 ≤ k.toNat && k.toNat ≤ 8 then
      match rest with
      | [] => none
      | i :: fields =>
        (splitFields (recordWidths k.toNat) fields).map fun f => .writeTable (recordOf k.toNat f) i.toNat
    else some (.writeTable (.unknown k.toNat) ((rest.map (·.toNat)).getD 0 0))

/-- R158: the body of a RELEASE. -/
def releaseBody (l : List Byte) : Option Request :=
  match splitFields [1, 1, 1, 1, 1, 2, 2, 4, 4] l with
  | some [d, k, u, g, f, q, m, o, t] =>
    some (.release { dam := d, kind := k, unit := u, urgency := g, flags := f, requested := q, minimum := m,
                     offset := o, duration := t })
  | _ => none

/-- R151: the body of a DECLARE_INFLOW, a pool and 1 to 12 rates. -/
def declareBody : List Byte → Option Request
  | [] => none
  | p :: rest =>
    if 2 ≤ rest.length && rest.length ≤ 24 then
      (splitFields (List.replicate (rest.length / 2) 2) rest).map fun r => .declareInflow p.toNat r
    else none

/-- A body of one byte. -/
def oneByte (f : Nat → Request) : List Byte → Option Request
  | [b] => some (f b.toNat)
  | _ => none

/-- A body of none. -/
def noBody (r : Request) : List Byte → Option Request
  | [] => some r
  | _ => none

/-- R146, R151: the request of a kind byte and a body; none where the length is not allowed for the kind. -/
def requestOf (kind : Nat) (l : List Byte) : Option Request :=
  match kind with
  | 0x01 => noBody .ping l
  | 0x02 => releaseBody l
  | 0x03 => match l with | [a, b] => some (.withdraw (bigEndian [a, b])) | _ => none
  | 0x04 => declareBody l
  | 0x05 => oneByte .takeLocal l
  | 0x06 => match l with | [c, a, b] => some (.setOpening c.toNat (bigEndian [a, b])) | _ => none
  | 0x07 => oneByte .releaseLocal l
  | 0x08 => oneByte .clearFault l
  | 0x09 => oneByte .resetTrip l
  | 0x0A => oneByte .bringUp l
  | 0x0B => match l with | [k, i] => some (.query k.toNat i.toNat) | _ => none
  | 0x0C => noBody .readConditions l
  | 0x0D => match l with | [a, b] => some (.setMask (bigEndian [a, b])) | _ => none
  | 0x0E => noBody .resume l
  | 0x0F => noBody .hold l
  | 0x10 => noBody .enterService l
  | 0x11 => noBody .leaveService l
  | 0x12 => writeTableBody l
  | 0x13 => noBody .storeSettings l
  | 0x14 => noBody .restart l
  | k => some (.unknown k)

/-! ### The receiver -/

/-- What the characters after a marker are: a frame not yet whole, one to discard, or a valid frame with its tag, its request and
the number of characters it took. -/
inductive Collected where
  | more
  | discarded
  | valid (tag : Nat) (r : Request) (taken : Nat)
  deriving DecidableEq, Repr

/-- R146: a frame whose characters from the length to the last CRC byte are all there. -/
def examineWhole (n : Nat) (covered crc : List Byte) : Collected :=
  if bigEndian crc != (crc16 covered).toNat then .discarded
  else
    match covered with
    | _ :: kind :: tag :: body =>
      match requestOf kind.toNat body with
      | some r => .valid tag.toNat r (n + 3)
      | none => .discarded
    | _ => .discarded

/-- R145, R146: the characters that follow a marker. -/
def examine (l : List Byte) : Collected :=
  match l with
  | [] => .more
  | n :: rest =>
    if n.toNat < 2 then .discarded
    else if rest.length < n.toNat + 2 then .more
    else examineWhole n.toNat (n :: rest.take n.toNat) ((rest.drop n.toNat).take 2)

/-- Would this valid frame restart the part (R174)? -/
def State.restarts (s : State) (l : Nat) (r : Request) : Bool :=
  let s1 := s.superviseFrame l
  r == .restart && !(s1.linkAt l).full && (s1.refusal l r).isNone

/-- R145: what the receiver of a link holds of the characters. -/
def State.collect (s : State) (l : Nat) (rx : List Byte) : State := s.setLink l { s.linkAt l with rx := rx }

/-- R145: the receiver takes characters, hunting: it passes over what is no marker, keeps a frame not yet whole, takes a valid
frame, and after a discarded one goes on from the byte after its marker. A RESTART leaves nothing collected. Each round uses a
character up, so a round for each is enough. -/
def State.hunt : Nat → Nat → List Byte → State → State
  | 0, l, _, s => s.collect l []
  | _ + 1, l, [], s => s.collect l []
  | n + 1, l, b :: rest, s =>
    if b != marker then s.hunt n l rest
    else
      match examine rest with
      | .more => s.collect l (b :: rest)
      | .discarded => s.hunt n l rest
      | .valid tag r taken =>
        if s.restarts l r then s.takeFrame l tag r else (s.takeFrame l tag r).hunt n l (rest.drop taken)

/-- R145: characters arrive on a link, behind those its receiver holds. -/
def State.receive (s : State) (l : Nat) (bytes : List Byte) : State :=
  let all := (s.linkAt l).rx ++ bytes
  s.hunt (all.length + 1) l all

/-! ### Codes (R157, R159) -/

def Status.code : Status → Nat
  | .ok => 0x00
  | .notPermitted => 0x10
  | .badIndex => 0x11
  | .badValue => 0x12
  | .wrongMode => 0x13
  | .wrongState => 0x14
  | .busy => 0x15
  | .heldByOther => 0x16
  | .tableFull => 0x17
  | .noSuchClaim => 0x18

def badTableCode : Nat := 0x19

def ClaimState.code : ClaimState → Nat
  | .granted => 0x01
  | .clamped => 0x02
  | .pending => 0x03
  | .suspended => 0x04

def Mode.code : Mode → Nat
  | .loading => 1
  | .configFault => 2
  | .hold => 3
  | .coordinate => 4
  | .service => 5

def ClaimGroup.code : ClaimGroup → Nat
  | .flood => 0
  | .dispatch => 1
  | .station => 2

def ClaimKind.code : ClaimKind → Nat
  | .turbine _ => 0
  | .spill => 1

def GaugeState.code : GaugeState → Nat
  | .await => 0
  | .good => 1
  | .lost => 2

def PassState.code : PassState → Nat
  | .idle => 0
  | .deferred => 1
  | .running => 2

def ChanState.code : ChanState → Nat
  | .offline => 0
  | .bringup => 1
  | .ready => 2
  | .moving => 3
  | .fault => 4
  | .tripped => 5

def Source.code : Source → Nat
  | .allocation => 0
  | .localHold => 1
  | .trip => 2

def FaultKind.code : FaultKind → Nat
  | .tracking => 1
  | .noFeedback => 2
  | .feedbackRange => 3
  | .bringupTimeout => 4

def CaptureKind.code : CaptureKind → Nat
  | .channelTracking => 1
  | .channelNoFeedback => 2
  | .channelFeedbackRange => 3
  | .bringupTimeout => 4
  | .gaugeLost => 5
  | .storeFailed => 6

def ResetCause.code : ResetCause → Nat
  | .powerOn => 1
  | .restart => 2

def StoreResult.code : StoreResult → Nat
  | .none => 0
  | .done => 1
  | .failed => 2

/-- R159: the two bytes of a load result. -/
def LoadResult.bytes : LoadResult → List Byte
  | .valid => field 1 0 ++ field 1 0
  | .failure t i => field 1 t ++ field 1 i
  | .checksumFailed => field 1 9 ++ field 1 0
  | .loading => field 1 10 ++ field 1 0

/-! ### Records -/

/-- R156: a field that may be absent, behind its presence byte. -/
def optional {α : Type} (f : α → List Byte) : Option α → List Byte
  | none => [0]
  | some a => 1 :: f a

/-- A yes or no field, a flag or a mark. -/
def flag (b : Bool) : List Byte := field 1 (codeOfBool b)

/-- R98: a claim as its record lists it. -/
def ClaimView.bytes (v : ClaimView) : List Byte :=
  field 2 v.handle ++ field 1 v.position ++ field 1 v.owner ++ field 1 v.group.code ++ field 1 v.urgency ++
    field 1 v.dam ++ field 1 v.kind.code ++
    (match v.kind with | .turbine u => optional (field 1) (some u) | .spill => optional (field 1) none) ++
    field 2 v.requested ++ field 2 v.minimum ++ field 4 v.start ++ optional (field 4) v.finish ++
    optional (field 4) v.deadline ++ flag v.withdrawn ++ field 1 v.state.code ++ field 2 v.grant ++
    optional (field 2) v.held

/-- R159: a signed number of eight bytes in two's complement. -/
def signed8 (x : Int) : List Byte := lowBytes 8 (BitVec.ofInt 64 x).toNat

/-- R72: the published forecast of a pool. -/
def ForecastView.bytes (v : ForecastView) : List Byte :=
  field 4 v.start ++ field 2 v.bin ++
    v.storage.toList.flatMap (fun p => field 4 p.1 ++ flag p.2) ++
    v.peak.toList.flatMap (fun p => field 2 p.1 ++ flag p.2) ++
    v.rates.toList.flatMap (field 2)

/-- R72: the published indication stands as the presence byte of the forecast; the pass state and the again flag follow it. -/
def PoolView.bytes (v : PoolView) : List Byte :=
  flag v.forecast.isSome ++ field 1 v.passState.code ++ flag v.again ++
    (match v.forecast with | some f => f.bytes | none => []) ++
    flag v.declared ++ optional (field 4) v.basis ++
    optional (field 4) (v.passBasis.map (·.1)) ++ optional (field 4) (v.passBasis.map (·.2)) ++
    field 1 v.gauge.code ++ signed8 v.reckoning

def ForcingRecord.bytes (r : ForcingRecord) : List Byte :=
  field 4 r.requirement ++ field 2 r.cap ++ flag r.capBit ++ flag r.held

/-- R114: the compensation list stands behind its count. -/
def PlanView.bytes (v : PlanView) : List Byte :=
  field 2 v.forced ++ field 1 v.entries.length ++
    v.entries.flatMap (fun e => field 1 e.1 ++ field 2 e.2.1 ++ field 4 e.2.2) ++
    field 4 v.compensation ++ field 4 v.unmanaged ++ optional ForcingRecord.bytes v.record

/-- R134, R144. -/
def ChannelView.bytes (v : ChannelView) : List Byte :=
  field 1 v.kind.code ++ field 1 v.dam ++ field 1 v.state.code ++ field 1 v.source.code ++
    optional (field 1) v.holder ++ optional (field 2) v.target ++ optional (field 4) v.targetFlow ++
    optional (field 2) v.setpoint ++ optional (field 2) v.measured ++ field 4 v.actual ++ field 4 v.capacity ++
    field 2 v.head ++ flag v.shortfall ++ flag v.waitMark ++
    optional (field 1) (v.faultKind.map FaultKind.code) ++ optional flag v.tripInput ++
    optional (field 2) v.localOpening ++ flag v.orphan

/-- R47, R156, R159: the flow and the departure of the oldest and of the newest step each stand behind a presence byte of their
own; the arrived volume and the accumulator take eight bytes. -/
def ReachView.bytes (v : ReachView) : List Byte :=
  field 1 v.count ++ flag v.coarsened ++ field 2 v.travel ++ field 2 v.deadband ++
    optional (field 4) (v.oldest.map (·.flow)) ++ optional (field 4) (v.oldest.map (·.departure)) ++
    optional (field 4) (v.newest.map (·.flow)) ++ optional (field 4) (v.newest.map (·.departure)) ++ field 4 v.cut ++
    field 8 v.arrived ++ field 4 v.outflow ++ field 8 v.volume

/-- R156: the held channels stand behind their count. -/
def LinkView.bytes (v : LinkView) : List Byte :=
  field 1 v.cls.code ++ optional (field 1) v.dam ++ flag v.up ++ optional (field 4) v.lastFrame ++
    field 1 v.timeout ++ field 2 v.abandon ++ field 1 v.buffered ++ field 1 v.queued ++ flag v.statusPending ++
    field 2 v.mask.toNat ++ field 1 v.owned ++ field 1 v.abandoned ++ field 1 v.holds.length ++
    v.holds.flatMap (fun h => field 1 h.1 ++ flag h.2)

/-- R166, R167. -/
def Capture.bytes (c : Capture) : List Byte :=
  field 1 c.kind.code ++ field 1 c.subject ++ field 4 c.time ++ optional (field 2) c.setpoint ++
    optional (field 2) c.measured ++ field 1 c.later

/-- R156. -/
def IdentityView.bytes (v : IdentityView) : List Byte :=
  field 1 v.family ++ field 1 v.part ++ field 1 v.cause.code ++ v.loadResult.bytes ++ field 1 v.mode.code ++
    flag v.writing ++ field 1 v.result.code ++ field 1 v.damCount ++ field 4 v.clock

/-- R156: the record kind of a record, and its bytes. -/
def QueryRecord.bytes : QueryRecord → List Byte
  | .emptySlot _ g => field 1 1 ++ optional (field 2) none ++ field 2 g
  | .claim v => field 1 1 ++ optional ClaimView.bytes (some v)
  | .poolForecast v => field 1 2 ++ v.bytes
  | .damPlan v => field 1 3 ++ v.bytes
  | .channel v => field 1 4 ++ v.bytes
  | .reach v => field 1 5 ++ v.bytes
  | .linkState v => field 1 6 ++ v.bytes
  | .capture v => field 1 7 ++ optional Capture.bytes v
  | .identity v => field 1 8 ++ v.bytes

/-! ### Frames the part sends -/

/-- R157, R158: the body of a reply. -/
def ReplyBody.bytes : ReplyBody → List Byte
  | .status c => field 1 c.code
  | .claim st h g => field 1 st.code ++ field 2 h ++ field 2 g
  | .badTable t i => field 1 badTableCode ++ field 1 t ++ field 1 i
  | .record r => field 1 Status.ok.code ++ r.bytes
  | .conditions c b => field 1 Status.ok.code ++ field 2 c.toNat ++ field 1 b.toNat

/-- R158: the envelope of a frame. -/
def envelope (kind tag : Nat) (body : List Byte) : List Byte :=
  let covered := field 1 (body.length + 2) ++ field 1 kind ++ field 1 tag ++ body
  marker :: covered ++ field 2 (crc16 covered).toNat

/-- R151: the kind of a STATUS frame. -/
def statusKind : Nat := 0xC0

/-- R158: the characters of a frame the part sends. -/
def TxFrame.bytes : TxFrame → List Byte
  | .reply kind tag body => envelope kind tag body.bytes
  | .status mode published latched band =>
    envelope statusKind 0
      (field 1 (mode.code + (if published then 0x80 else 0)) ++ field 2 latched.toNat ++ field 1 band.toNat)

end Sys2Proof.Machine
end

