-- ==== Sys2Proof/Machine/Commands.lean ====
section
/-! DEFINITION. The form of every meaning: a well-formed command makes its effect, and any other is refused by name. -/

namespace Sys2Proof.Machine

/-- The outcome of a command. -/
abbrev Result := Host.Outcome State Fault Refusal

/-- A command that can reach the part makes its effect; operands that no line and no frame field carries are refused. -/
def command (c : Instr) (t : State) : Result := if c.wf then .next t else .refused .illFormed

end Sys2Proof.Machine
end

