-- ==== Sys2Proof/Machine/Clock.lean ====
section
/-! DEFINITION. The cascade clock (R175) and the events a second brings. DESIGN CHOICE (log entry 1): they are commands that
join the queue in one fixed order. -/

namespace Sys2Proof.Machine

/-- R25: the reading timers that expire. -/
def State.dueGauges (s : State) : List Instr :=
  ([1, 2, 3, 4, 5, 6, 7].filter fun g => s.due (s.gauge g).timer).map .gaugeTimerExpiry

/-- R51: the pass timer. -/
def State.duePass (s : State) : List Instr := if s.due s.pass.timer then [.passTimerExpiry] else []

/-- R119, R125, R129: the timers of a channel that expire. -/
def State.dueOfChannel (s : State) (c : Nat) : List Instr :=
  (if s.due (s.chan c).rampTimer then [.rampStep c] else []) ++
    (if s.due (s.chan c).trackTimer then [.trackingTimerExpiry c] else []) ++
    (if s.due (s.chan c).feedbackTimer then [.feedbackTimerExpiry c] else []) ++
    (if s.due (s.chan c).bringupTimer then [.bringupTimerExpiry c] else [])

/-- R89: the claims with a positive grant that start at the present second. -/
def State.dueStarts (s : State) : List Instr :=
  (s.claims.filter fun c => c.start == s.clock && c.grant != 0).map fun c => .claimStartReached (slotOf c.handle)

/-- R91: the claims whose ends are reached. -/
def State.dueEnds (s : State) : List Instr :=
  (s.claims.filter fun c => c.endedAt s.clock && !c.reached).map fun c => .claimEndReached (slotOf c.handle)

/-- R147: the link timers. -/
def State.dueLinks (s : State) : List Instr :=
  (linkNumbers.filter fun l => s.due (s.linkAt l).timer).map .linkTimerExpiry

/-- Every event of the present second. -/
def State.dueEvents (s : State) : List Instr :=
  s.dueGauges ++ s.duePass ++ channelNumbers.flatMap s.dueOfChannel ++ s.dueStarts ++ s.dueEnds ++ s.dueLinks

/-- R175: a second passes. The second after 4,294,967,295 brings the wrap alone. -/
def State.tick (s : State) : State :=
  if s.clock < Config.maxClock then
    let s' := { s with clock := s.clock + 1 }
    { s' with pending := s'.pending ++ s'.dueEvents }
  else { s with pending := s.pending ++ [.clockWrap] }

end Sys2Proof.Machine
end

