-- ==== Sys2Proof/Machine/ChannelEvents.lean ====
section
/-! DEFINITION. Position reports, the trip inputs, the ramp step and the supervision timers of a gate channel (R118, R125, R127,
R129, R132). -/

namespace Sys2Proof.Machine

/-! ### Position reports -/

/-- R118: an accepted report in BRINGUP: measured position, setpoint and target take the position. -/
def State.placeAt (s : State) (c p : Nat) : State :=
  let flow := (s.active.channel c).flow p (s.chanHead c)
  (s.setChan c (Channel.aimAt { s.chan c with measured := some p } p flow)).reformFlow c

/-- R118: a manual channel waits for BRING_UP with its bring-up timer stopped. -/
def State.waitManual (s : State) (c : Nat) : State :=
  s.setChan c { s.chan c with waitMark := true, bringupTimer := none }

/-- R118: an accepted report in BRINGUP. A channel that waits goes on waiting. -/
def State.bringupReport (s : State) (c p : Nat) : State :=
  let waits := (s.active.channel c).manual || (s.chan c).waitMark
  if waits then (s.placeAt c p).waitManual c else (s.placeAt c p).enterReady c

/-- R129: the tracking timer after an accepted report. -/
def trackAfter (r : ChanRec) (now p : Nat) (x : Channel) : Option Nat :=
  if absDiff p (x.setpoint.getD 0) ≤ r.tolerance then none
  else match x.trackTimer with
    | some e => some e
    | none => some (now + r.trackTime)

/-- R127, R129: an accepted report in READY or MOVING. -/
def State.trackedReport (s : State) (c p : Nat) : State :=
  let r := s.active.channel c
  let x := s.chan c
  let x' := { x with measured := some p, feedbackTimer := some (s.clock + r.feedbackTimeout)
                     trackTimer := trackAfter r s.clock p x }
  (s.setChan c x').reformFlow c

/-- R132: the first setpoint of a TRIPPED channel without one, with its command and its ramp step timer. -/
def Channel.firstTripped (x : Channel) (p expiry : Nat) : Channel :=
  match x.setpoint with
  | some _ => x
  | none => { x.drive p with rampTimer := some expiry }

/-- R127, R132: an accepted report in TRIPPED. -/
def State.trippedReport (s : State) (c p : Nat) : State :=
  let x := { s.chan c with measured := some p }
  let x' := x.firstTripped p (s.clock + (s.active.channel c).rampInterval)
  (s.setChan c x').reformFlow c

/-- R127: a report in FAULT sets the measured position; the actual flow is held. -/
def State.faultReport (s : State) (c p : Nat) : State :=
  s.setChan c { s.chan c with measured := some p }

/-- R127: a position report by the state of its channel. -/
def State.report (s : State) (c : Nat) (p : Int) : State :=
  match (s.chan c).state with
  | .offline => s
  | .bringup => if positionOk p then s.bringupReport c (clampPosition p) else s
  | .ready => if positionOk p then s.trackedReport c (clampPosition p) else s.enterFault c .feedbackRange
  | .moving => if positionOk p then s.trackedReport c (clampPosition p) else s.enterFault c .feedbackRange
  | .tripped => if positionOk p then s.trippedReport c (clampPosition p) else s
  | .fault => if positionOk p then s.faultReport c (clampPosition p) else s

/-- R127: a position report arrives on an actuator line. -/
def execPositionReport (c : Nat) (p : Int) (s : State) : Result :=
  command (.positionReport c p) (s.report c p)

/-! ### Trip inputs -/

/-- R132: does an assertion act: a configured TURBINE channel, neither OFFLINE nor TRIPPED? -/
def State.tripActs (s : State) (c : Nat) : Bool :=
  (s.active.damOf c).isSome && (s.active.channel c).kind == .turbine &&
    (s.chan c).state != .offline && (s.chan c).state != .tripped

/-- R132: the trip input of a channel changes from released to asserted; an input that is asserted already does not change. -/
def State.assertTrip (s : State) (c : Nat) : State :=
  if s.tripLine c then s
  else
    let s' := s.setTripLine c true
    if s'.tripActs c then s'.trip c else s'

/-- R132: a trip input asserts. -/
def execTripAssertion (c : Nat) (s : State) : Result := command (.tripAssertion c) (s.assertTrip c)

/-- R132: a trip input releases; the channel is unchanged. -/
def execTripRelease (c : Nat) (s : State) : Result := command (.tripRelease c) (s.setTripLine c false)

/-! ### Ramp steps -/

/-- R125: the setpoint after one step. -/
def Channel.stepped (r : ChanRec) (x : Channel) (sp : Nat) : Nat :=
  if x.state == .tripped then sp - min sp r.tripLimit
  else rampTo sp (x.target.getD sp) r.openLimit r.closeLimit

/-- R125, R126: one ramp step: the timer restarts, a change of setpoint sends a command, and a MOVING channel that has reached
its target is READY. -/
def Channel.rampStep (r : ChanRec) (expiry : Nat) (x : Channel) : Channel :=
  let x := { x with rampTimer := some expiry }
  match x.setpoint with
  | none => x
  | some sp =>
    let sp' := x.stepped r sp
    (if sp' == sp then x else x.drive sp').settle

/-- R125: does the ramp step timer run in this state? -/
def Channel.ramps (x : Channel) : Bool := x.inService || x.state == .tripped

/-- R125: the ramp step timer of a channel expires. A step that changes the channel's state recomputes the targets of its dam
(R122). -/
def State.ramp (s : State) (c : Nat) : State :=
  if (s.chan c).ramps && s.due (s.chan c).rampTimer then
    let r := s.active.channel c
    let x := (s.chan c).rampStep r (s.clock + r.rampInterval)
    if x.state == (s.chan c).state then s.setChan c x else (s.setChan c x).recomputeFor c
  else s

/-- R125: a ramp step. -/
def execRampStep (c : Nat) (s : State) : Result := command (.rampStep c) (s.ramp c)

/-! ### Supervision -/

/-- R129: the tracking timer expires. -/
def execTrackingTimerExpiry (c : Nat) (s : State) : Result :=
  command (.trackingTimerExpiry c)
    (if (s.chan c).inService && s.due (s.chan c).trackTimer then s.enterFault c .tracking else s)

/-- R129: the feedback timer expires. -/
def execFeedbackTimerExpiry (c : Nat) (s : State) : Result :=
  command (.feedbackTimerExpiry c)
    (if (s.chan c).inService && s.due (s.chan c).feedbackTimer then s.enterFault c .noFeedback else s)

/-- R119: the bring-up timer expires. -/
def execBringupTimerExpiry (c : Nat) (s : State) : Result :=
  command (.bringupTimerExpiry c)
    (if (s.chan c).state == .bringup && s.due (s.chan c).bringupTimer then s.enterFault c .bringupTimeout else s)

end Sys2Proof.Machine
end

