-- ==== Sys2Proof/Machine/ClaimEvents.lean ====
section
/-! DEFINITION. The starts and ends of claims, and the requests that place and withdraw them (R79, R89 to R91). -/

namespace Sys2Proof.Machine

/-- R89: the start of a claim with a positive grant is reached. -/
def State.startReached (s : State) (slot : Nat) : State :=
  match s.claimAt slot with
  | some c => if c.start ≤ s.clock && c.grant != 0 then s.recompute c.dam else s
  | none => s

/-- R89: a claim's start is reached. -/
def execClaimStartReached (slot : Nat) (s : State) : Result :=
  command (.claimStartReached slot) (s.startReached slot)

/-- R91: the end of the claim in a slot, if it is reached. -/
def State.endReached (s : State) (slot : Nat) : State :=
  match s.claimAt slot with
  | some c => s.endIfReached c.handle
  | none => s

/-- R91: a claim's end is reached. -/
def execClaimEndReached (slot : Nat) (s : State) : Result :=
  command (.claimEndReached slot) (s.endReached slot)

/-- R79: RELEASE. -/
def execRelease (l tag : Nat) (b : RawRelease) (s : State) : Result :=
  command (.release l tag b) (s.takeFrame l tag (.release b))

/-- R90: WITHDRAW. -/
def execWithdraw (l tag handle : Nat) (s : State) : Result :=
  command (.withdraw l tag handle) (s.takeFrame l tag (.withdraw handle))

/-- R58: DECLARE_INFLOW. -/
def execDeclareInflow (l tag pool : Nat) (rates : List Nat) (s : State) : Result :=
  command (.declareInflow l tag pool rates) (s.takeFrame l tag (.declareInflow pool rates))

end Sys2Proof.Machine
end

