-- ==== Sys2Proof/Machine/GateRequests.lean ====
section
/-! DEFINITION. The requests that name a gate channel (R119, R131, R133, R137, R139, R140). -/

namespace Sys2Proof.Machine

/-- R137: TAKE_LOCAL. -/
def execTakeLocal (l tag c : Nat) (s : State) : Result :=
  command (.takeLocal l tag c) (s.takeFrame l tag (.takeLocal c))

/-- R139: SET_OPENING. -/
def execSetOpening (l tag c opening : Nat) (s : State) : Result :=
  command (.setOpening l tag c opening) (s.takeFrame l tag (.setOpening c opening))

/-- R140: RELEASE_LOCAL. -/
def execReleaseLocal (l tag c : Nat) (s : State) : Result :=
  command (.releaseLocal l tag c) (s.takeFrame l tag (.releaseLocal c))

/-- R131: CLEAR_FAULT. -/
def execClearFault (l tag c : Nat) (s : State) : Result :=
  command (.clearFault l tag c) (s.takeFrame l tag (.clearFault c))

/-- R133: RESET_TRIP. -/
def execResetTrip (l tag c : Nat) (s : State) : Result :=
  command (.resetTrip l tag c) (s.takeFrame l tag (.resetTrip c))

/-- R119: BRING_UP. -/
def execBringUp (l tag c : Nat) (s : State) : Result :=
  command (.bringUp l tag c) (s.takeFrame l tag (.bringUp c))

end Sys2Proof.Machine
end

