-- ==== Sys2Proof/Machine/GaugeEvents.lean ====
section
/-! DEFINITION. The events of the gauge lines (R22 to R25). -/

namespace Sys2Proof.Machine

/-- R22: a reading arrives on a gauge line. -/
def execGaugeReading (g level : Nat) (good : Bool) (s : State) : Result :=
  command (.gaugeReading g level good) (s.takeReading g level good)

/-- R25: a gauge's reading timer expires. -/
def execGaugeTimerExpiry (g : Nat) (s : State) : Result :=
  command (.gaugeTimerExpiry g) (if s.due (s.gauge g).timer then s.loseGauge g else s)

end Sys2Proof.Machine
end

