-- ==== Sys2Proof/Machine/LinkEvents.lean ====
section
/-! DEFINITION. The events of the master links (R145 to R149), PING (R155), and the requests for conditions (R163, R165). -/

namespace Sys2Proof.Machine

/-- R145, R146: characters reach the receiver of a link that end in a discarded frame; it hunts again from the byte after that
frame's marker, and takes the valid frames it finds. -/
def execFrameDiscarded (l : Nat) (bytes : List Byte) (s : State) : Result :=
  command (.frameDiscarded l bytes) (s.receive l bytes)

/-- R146: a valid frame of an unknown kind. -/
def execUnknownKind (l tag kind : Nat) (s : State) : Result :=
  command (.unknownKind l tag kind) (s.takeFrame l tag (.unknown kind))

/-- R147: a link timer expires. -/
def execLinkTimerExpiry (l : Nat) (s : State) : Result :=
  command (.linkTimerExpiry l) (if s.due (s.linkAt l).timer then s.linkDown l else s)

/-- R148: a line break. -/
def execLineBreak (l : Nat) (s : State) : Result := command (.lineBreak l) (s.lineBreak l)

/-- R149: a frame the part sends ends. -/
def execFrameSent (l : Nat) (s : State) : Result := command (.frameSent l) (s.endFrame l)

/-- R155: PING. -/
def execPing (l tag : Nat) (s : State) : Result := command (.ping l tag) (s.takeFrame l tag .ping)

/-- R165: READ_CONDITIONS. -/
def execReadConditions (l tag : Nat) (s : State) : Result :=
  command (.readConditions l tag) (s.takeFrame l tag .readConditions)

/-- R163: SET_MASK. -/
def execSetMask (l tag mask : Nat) (s : State) : Result :=
  command (.setMask l tag mask) (s.takeFrame l tag (.setMask mask))

end Sys2Proof.Machine
end

