-- ==== Sys2Proof/Machine/ModeRequests.lean ====
section
/-! DEFINITION. The requests of the Mode Controller (R14, R170 to R174). -/

namespace Sys2Proof.Machine

/-- R170: RESUME. -/
def execResume (l tag : Nat) (s : State) : Result := command (.resume l tag) (s.takeFrame l tag .resume)

/-- R170: HOLD. -/
def execHold (l tag : Nat) (s : State) : Result := command (.hold l tag) (s.takeFrame l tag .hold)

/-- R171: ENTER_SERVICE. -/
def execEnterService (l tag : Nat) (s : State) : Result :=
  command (.enterService l tag) (s.takeFrame l tag .enterService)

/-- R171: LEAVE_SERVICE. -/
def execLeaveService (l tag : Nat) (s : State) : Result :=
  command (.leaveService l tag) (s.takeFrame l tag .leaveService)

/-- R14: WRITE_TABLE. -/
def execWriteTable (l tag : Nat) (r : RawRecord) (i : Nat) (s : State) : Result :=
  command (.writeTable l tag r i) (s.takeFrame l tag (.writeTable r i))

/-- R172: STORE_SETTINGS. -/
def execStoreSettings (l tag : Nat) (s : State) : Result :=
  command (.storeSettings l tag) (s.takeFrame l tag .storeSettings)

/-- R174: RESTART. -/
def execRestart (l tag : Nat) (s : State) : Result := command (.restart l tag) (s.takeFrame l tag .restart)

end Sys2Proof.Machine
end

