-- ==== Sys2Proof/Machine/PassEvents.lean ====
section
/-! DEFINITION. The pass timer and the stages of a pass (R51, R63 to R70). A stage is made only in its turn. -/

namespace Sys2Proof.Machine

/-- R51: the effect of the pass timer's expiry. -/
def State.expirePass (s : State) : State :=
  if s.inFlight then { s with pass := { s.pass with again := true, timer := none } } else s.startPass

/-- R51: the pass timer expires. -/
def execPassTimerExpiry (s : State) : Result :=
  command .passTimerExpiry (if s.due s.pass.timer then s.expirePass else s)

/-- R64: stage 2. -/
def execRoutingUpkeep (s : State) : Result :=
  command .routingUpkeep (if s.atStage .routing then s.routingStage else s)

/-- R65: stage 3. -/
def execBaseForecast (s : State) : Result :=
  command .baseForecast (if s.atStage .base then s.baseStage else s)

/-- R66: stage 4. -/
def execSweep (s : State) : Result := command .sweep (if s.atStage .sweep then s.sweepStage else s)

/-- R67: stage 5. -/
def execForcing (s : State) : Result := command .forcing (if s.atStage .forcing then s.forcingStage else s)

/-- R68, R69: stage 6. -/
def execPublish (s : State) : Result := command .publish (if s.atStage .publish then s.publishStage else s)

/-- R70: stage 7. -/
def execPassCompletion (s : State) : Result :=
  command .passCompletion (if s.atStage .completion then s.completionStage else s)

end Sys2Proof.Machine
end

