-- ==== Sys2Proof/Machine/QueryRequests.lean ====
section
/-! DEFINITION. QUERY, by its record kind (R156). -/

namespace Sys2Proof.Machine

/-- R98: QUERY of a claim slot. -/
def execQueryClaim (l tag slot : Nat) (s : State) : Result :=
  command (.queryClaim l tag slot) (s.takeFrame l tag (.query 1 slot))

/-- R72: QUERY of a pool forecast. -/
def execQueryPoolForecast (l tag pool : Nat) (s : State) : Result :=
  command (.queryPoolForecast l tag pool) (s.takeFrame l tag (.query 2 pool))

/-- R114: QUERY of a dam plan. -/
def execQueryDamPlan (l tag dam : Nat) (s : State) : Result :=
  command (.queryDamPlan l tag dam) (s.takeFrame l tag (.query 3 dam))

/-- R134: QUERY of a channel. -/
def execQueryChannel (l tag channel : Nat) (s : State) : Result :=
  command (.queryChannel l tag channel) (s.takeFrame l tag (.query 4 channel))

/-- R47: QUERY of a reach queue summary. -/
def execQueryReachQueue (l tag reach : Nat) (s : State) : Result :=
  command (.queryReachQueue l tag reach) (s.takeFrame l tag (.query 5 reach))

/-- R156: QUERY of a link state. -/
def execQueryLinkState (l tag index : Nat) (s : State) : Result :=
  command (.queryLinkState l tag index) (s.takeFrame l tag (.query 6 index))

/-- R167: QUERY of the fault capture. -/
def execQueryFaultCapture (l tag index : Nat) (s : State) : Result :=
  command (.queryFaultCapture l tag index) (s.takeFrame l tag (.query 7 index))

/-- R156: QUERY of the identity record. -/
def execQueryIdentity (l tag index : Nat) (s : State) : Result :=
  command (.queryIdentity l tag index) (s.takeFrame l tag (.query 8 index))

end Sys2Proof.Machine
end

