-- ==== Sys2Proof/Machine/ResetEvents.lean ====
section
/-! DEFINITION. Power-on, the completion of the image read, the wrap of the clock, and the steps of a settings write (R168, R169,
R172, R173, R175). -/

namespace Sys2Proof.Machine

/-- R168, R169: power-on enters LOADING with reset cause POWER_ON. -/
def execPowerOn (s : State) : Result := command .powerOn (s.enterLoading .powerOn)

/-- R169, R18: completion of the image read, in LOADING. -/
def execLoadComplete (s : State) : Result :=
  command .loadComplete (if s.mode == .loading then s.completeLoad else s)

/-- R175: the second after 4,294,967,295 is taken as a RESTART. -/
def execClockWrap (s : State) : Result :=
  command .clockWrap (if s.clock == Config.maxClock then s.enterLoading .restart else s)

/-- R172: a step of the settings write completes and the next begins. -/
def execStoreStepDone (s : State) : Result := command .storeStepDone { s with store := s.store.advance }

/-- R173: the checksum has been written. -/
def execStoreComplete (s : State) : Result := command .storeComplete { s with store := s.store.complete }

/-- R173: the store reports a failure. -/
def execStoreFailure (s : State) : Result := command .storeFailure s.failStore

end Sys2Proof.Machine
end

