-- ==== Sys2Proof/Machine/Dispatch.lean ====
section
/-! DEFINITION. The meaning of every command, one arm each. -/

namespace Sys2Proof.Machine

def exec (i : Instr) (s : State) : Host.Outcome State Fault Refusal :=
  match i with
  | .powerOn => Sys2Proof.Machine.execPowerOn s
  | .loadComplete => Sys2Proof.Machine.execLoadComplete s
  | .clockWrap => Sys2Proof.Machine.execClockWrap s
  | .gaugeReading g level good => Sys2Proof.Machine.execGaugeReading g level good s
  | .gaugeTimerExpiry g => Sys2Proof.Machine.execGaugeTimerExpiry g s
  | .passTimerExpiry => Sys2Proof.Machine.execPassTimerExpiry s
  | .routingUpkeep => Sys2Proof.Machine.execRoutingUpkeep s
  | .baseForecast => Sys2Proof.Machine.execBaseForecast s
  | .sweep => Sys2Proof.Machine.execSweep s
  | .forcing => Sys2Proof.Machine.execForcing s
  | .publish => Sys2Proof.Machine.execPublish s
  | .passCompletion => Sys2Proof.Machine.execPassCompletion s
  | .positionReport c p => Sys2Proof.Machine.execPositionReport c p s
  | .tripAssertion c => Sys2Proof.Machine.execTripAssertion c s
  | .tripRelease c => Sys2Proof.Machine.execTripRelease c s
  | .rampStep c => Sys2Proof.Machine.execRampStep c s
  | .trackingTimerExpiry c => Sys2Proof.Machine.execTrackingTimerExpiry c s
  | .feedbackTimerExpiry c => Sys2Proof.Machine.execFeedbackTimerExpiry c s
  | .bringupTimerExpiry c => Sys2Proof.Machine.execBringupTimerExpiry c s
  | .claimStartReached n => Sys2Proof.Machine.execClaimStartReached n s
  | .claimEndReached n => Sys2Proof.Machine.execClaimEndReached n s
  | .frameDiscarded l bytes => Sys2Proof.Machine.execFrameDiscarded l bytes s
  | .unknownKind l tag kind => Sys2Proof.Machine.execUnknownKind l tag kind s
  | .linkTimerExpiry l => Sys2Proof.Machine.execLinkTimerExpiry l s
  | .lineBreak l => Sys2Proof.Machine.execLineBreak l s
  | .frameSent l => Sys2Proof.Machine.execFrameSent l s
  | .ping l tag => Sys2Proof.Machine.execPing l tag s
  | .release l tag b => Sys2Proof.Machine.execRelease l tag b s
  | .withdraw l tag h => Sys2Proof.Machine.execWithdraw l tag h s
  | .declareInflow l tag pool rates => Sys2Proof.Machine.execDeclareInflow l tag pool rates s
  | .takeLocal l tag c => Sys2Proof.Machine.execTakeLocal l tag c s
  | .setOpening l tag c opening => Sys2Proof.Machine.execSetOpening l tag c opening s
  | .releaseLocal l tag c => Sys2Proof.Machine.execReleaseLocal l tag c s
  | .clearFault l tag c => Sys2Proof.Machine.execClearFault l tag c s
  | .resetTrip l tag c => Sys2Proof.Machine.execResetTrip l tag c s
  | .bringUp l tag c => Sys2Proof.Machine.execBringUp l tag c s
  | .queryClaim l tag n => Sys2Proof.Machine.execQueryClaim l tag n s
  | .queryPoolForecast l tag pool => Sys2Proof.Machine.execQueryPoolForecast l tag pool s
  | .queryDamPlan l tag dam => Sys2Proof.Machine.execQueryDamPlan l tag dam s
  | .queryChannel l tag c => Sys2Proof.Machine.execQueryChannel l tag c s
  | .queryReachQueue l tag reach => Sys2Proof.Machine.execQueryReachQueue l tag reach s
  | .queryLinkState l tag k => Sys2Proof.Machine.execQueryLinkState l tag k s
  | .queryFaultCapture l tag k => Sys2Proof.Machine.execQueryFaultCapture l tag k s
  | .queryIdentity l tag k => Sys2Proof.Machine.execQueryIdentity l tag k s
  | .readConditions l tag => Sys2Proof.Machine.execReadConditions l tag s
  | .setMask l tag mask => Sys2Proof.Machine.execSetMask l tag mask s
  | .resume l tag => Sys2Proof.Machine.execResume l tag s
  | .hold l tag => Sys2Proof.Machine.execHold l tag s
  | .enterService l tag => Sys2Proof.Machine.execEnterService l tag s
  | .leaveService l tag => Sys2Proof.Machine.execLeaveService l tag s
  | .writeTable l tag r k => Sys2Proof.Machine.execWriteTable l tag r k s
  | .storeSettings l tag => Sys2Proof.Machine.execStoreSettings l tag s
  | .storeStepDone => Sys2Proof.Machine.execStoreStepDone s
  | .storeComplete => Sys2Proof.Machine.execStoreComplete s
  | .storeFailure => Sys2Proof.Machine.execStoreFailure s
  | .restart l tag => Sys2Proof.Machine.execRestart l tag s

end Sys2Proof.Machine
end

