-- ==== Sys2Proof/Safety.lean ====
section
/-! DEFINITION. What the claims about the part are stated with: the invariants of its state, the requests as commands, and what
it means that a reply is given. -/

namespace Sys2Proof.Machine

/-! ### Invariants -/

/-- An opening that may be absent lies within 0 to 1000 per-mille. -/
abbrev openingIn (o : Option Nat) : Prop := o.getD 0 ≤ 1000

/-- R126: every opening a channel holds or was sent. -/
abbrev Channel.openings (x : Channel) : Prop :=
  openingIn x.setpoint ∧ openingIn x.target ∧ openingIn x.measured ∧ openingIn x.localOpening ∧ openingIn x.command

/-- R126: the openings of every channel. -/
abbrev State.openingsOk (s : State) : Prop := ∀ c ∈ channelNumbers, (s.chan c).openings

/-- R117, R125, R129, R130, R135: what a channel's state says of its hold, its marks, its setpoint and its timers. -/
abbrev Channel.coherent (x : Channel) : Prop :=
  (x.localOpening.isSome = x.holder.isSome) ∧
  (x.orphan = true → x.holder.isSome) ∧
  (x.holder.isSome → x.state ≠ .tripped ∧ x.state ≠ .offline) ∧
  (x.faultKind.isSome ↔ x.state = .fault) ∧
  (x.waitMark = true → x.state = .bringup ∧ x.setpoint.isSome) ∧
  (x.inService = true → x.setpoint.isSome) ∧
  (x.trackTimer.isSome → x.inService = true) ∧
  (x.feedbackTimer.isSome → x.inService = true) ∧
  (x.rampTimer.isSome → x.ramps = true) ∧
  (x.bringupTimer.isSome → x.state = .bringup)

/-- The coherence of every channel. -/
abbrev State.channelsOk (s : State) : Prop := ∀ c ∈ channelNumbers, (s.chan c).coherent

/-- R77: the flow a claim may hold in a state. -/
abbrev grantFits (c : Claim) (state : ClaimState) (grant : Nat) : Prop :=
  (state = .pending → grant = 0) ∧ (state = .suspended → grant = 0) ∧ (state = .granted → grant = c.requested) ∧
    (state = .clamped → c.minimum ≤ grant ∧ grant < c.requested)

/-- R77, R93: a claim's live and working values. -/
abbrev Claim.fits (c : Claim) : Prop :=
  grantFits c c.state c.grant ∧ grantFits c c.workState c.workGrant ∧ (c.held.isSome ↔ c.state = .suspended)

/-- R74, R76, R77: the claim table. Only an end can have been taken (log entry 19). -/
abbrev State.claimsOk (s : State) : Prop :=
  (s.claims.map fun c => slotOf c.handle).Nodup ∧
  (∀ c ∈ s.claims, c.fits) ∧
  (∀ c ∈ s.claims, get0 s.generations (slotOf c.handle) = generationOf c.handle) ∧
  (∀ c ∈ s.claims, c.handle < 65536) ∧
  (∀ c ∈ s.claims, c.reached = true → c.finish.isSome = true)

/-- R65: while the sweep is the next stage of a pass every claim stands as stage 3 has left it. That its working state is PENDING is log
entry 26. -/
abbrev State.sweepReady (s : State) : Prop :=
  s.atStage .sweep = true → ∀ c ∈ s.claims, c.workGrant = 0 ∧ c.workState = .pending

/-- R95: no claim holds a positive grant, and a pass that has made its sweep has none to publish. -/
abbrev State.grantless (s : State) : Prop :=
  (∀ c ∈ s.claims, c.grant = 0) ∧
  ((s.atStage .forcing = true ∨ s.atStage .publish = true) → ∀ c ∈ s.claims, c.workGrant = 0)

/-- R95: a pass is in flight, and a publish to come sets every grant to 0: the sweep of the pass is still to be made, or it gave no claim a
working grant, or the again flag brings another pass. -/
abbrev State.clearing (s : State) : Prop :=
  s.inFlight = true ∧
  (s.pass.again = true ∨ s.pass.state = .deferred ∨
    s.atStage .routing = true ∨ s.atStage .base = true ∨ s.atStage .sweep = true ∨
    ((s.atStage .forcing = true ∨ s.atStage .publish = true) ∧ ∀ c ∈ s.claims, c.workGrant = 0))

/-- R95: out of COORDINATE no claim holds a positive grant, but while a pass in flight is to take it. -/
abbrev State.grantsByMode (s : State) : Prop := s.mode ≠ .coordinate → s.grantless ∨ s.clearing

/-- The numbers of the six dams and pools. -/
def sixNumbers : List Nat := [1, 2, 3, 4, 5, 6]

/-- R3, R15, R17, R116, R168: the active set has passed validation or is the empty set, and the limit storages are those of its pools;
while the part runs exactly the channels that are not configured are OFFLINE, and an OFFLINE channel passes no flow. -/
abbrev State.setOk (s : State) : Prop :=
  (s.active = emptySet ∨ s.active.validate = none) ∧
  (∀ k ∈ sixNumbers, s.active.hasDam k = true →
    let r := s.active.pool k
    s.limitsAt k = { floor := r.storageAt r.floor, ceiling := r.storageAt r.ceiling, flood := r.storageAt r.flood }) ∧
  (∀ c ∈ channelNumbers, s.mode.running = true → ((s.chan c).state = .offline ↔ s.active.damOf c = none)) ∧
  (∀ c ∈ channelNumbers, (s.chan c).state = .offline → (s.chan c).actual = 0)

/-- R79, R81, R19: the unit of every TURBINE claim is a TURBINE channel of the claim's dam. -/
abbrev State.unitsOk (s : State) : Prop :=
  ∀ c ∈ s.claims, ∀ u, c.kind = .turbine u →
    s.active.damOf u = some c.dam ∧ (s.active.channel u).kind = .turbine

/-- R99: a dam plan. -/
abbrev DamPlan.ok (p : DamPlan) : Prop :=
  p.forced ≤ Config.maxFlow ∧ (p.entries.map (·.unit)).Nodup ∧
    ∀ e ∈ p.entries, 1 ≤ e.flow ∧ e.flow ≤ Config.maxFlow

/-- R99, R101: every dam plan, and the working forced spills of a pass. -/
abbrev State.plansOk (s : State) : Prop :=
  ∀ k ∈ sixNumbers, (s.planAt k).ok ∧ (get1 s.pass.dams k).forced ≤ Config.maxFlow

/-- R38, R39: a step queue holds at most 32 steps, in the order they departed, none later than the present. -/
abbrev Reach.ok (r : Reach) (now : Nat) : Prop :=
  r.queue.length ≤ Config.queueSteps ∧ (r.queue.map (·.departure)).Pairwise (· < ·) ∧
    ∀ p ∈ r.queue, p.departure ≤ now

/-- R38, R50: every reach, and the start of a pass. -/
abbrev State.reachesOk (s : State) : Prop :=
  (∀ k ∈ sixNumbers, (s.reachAt k).ok s.clock) ∧ s.pass.forecast.start ≤ s.clock

/-- Is the reply of the first buffered request formed? -/
def Link.firstFormed (x : Link) : Bool :=
  match x.buffer with
  | e :: _ => e.reply.isSome
  | [] => false

/-- R149: at most four requests are buffered; a transmitter rests only while nothing waits for it; a formed reply of the
first request waits, once. That it does so while it is in the buffer is log entry 6: a request leaves the buffer as its reply begins.
R164: a link that is up with an unmasked kind latched is owed a read. -/
abbrev Link.ok (x : Link) : Prop :=
  x.buffer.length ≤ Config.bufferPlaces ∧
  (x.sending = none → x.waiting = []) ∧
  x.waiting.count .first = (if x.firstFormed then 1 else 0) ∧
  (x.up = true → x.latched &&& ~~~x.mask ≠ 0#12 → x.statusPending = true) ∧
  (x.up = false → .status ∉ x.waiting)

/-- R149, R164: every link. -/
abbrev State.linksOk (s : State) : Prop := ∀ l ∈ linkNumbers, (s.linkAt l).ok

/-- R166: the later-fault count. -/
abbrev State.captureOk (s : State) : Prop := ∀ c ∈ s.capture, c.later ≤ 255

/-- R172: while a write is in flight the checksum field of the image stands invalidated. -/
abbrev State.storeOk (s : State) : Prop := s.store.writing.isSome → s.store.checksum = none

/-- R115, R169, R152: in LOADING and CONFIG_FAULT nothing is configured and nothing runs. -/
abbrev State.quiet (s : State) : Prop :=
  s.active.cascade.damCount = 0 ∧ s.active.cascade.tailPresent = false ∧
  s.pass.state = .idle ∧ s.pass.again = false ∧ s.pass.timer = none ∧ s.forecast = none ∧
  s.claims = [] ∧ s.intake = [] ∧ s.leaving = [] ∧
  (∀ c ∈ channelNumbers, (s.chan c).state = .offline ∧ (s.chan c).actual = 0) ∧
  (∀ g ∈ [1, 2, 3, 4, 5, 6, 7], s.gauge g = {}) ∧
  (∀ k ∈ sixNumbers, s.planAt k = {} ∧ s.poolAt k = {} ∧ s.damAt k = {} ∧ s.reachAt k = {})

abbrev State.quietOk (s : State) : Prop := s.mode.running = false → s.quiet

/-! ### Requests -/

/-- The link, the tag and the request of a command that is a frame of a master. -/
def requestOfCommand : Instr → Option (Nat × Nat × Request)
  | .unknownKind l t k => some (l, t, .unknown k)
  | .ping l t => some (l, t, .ping)
  | .release l t b => some (l, t, .release b)
  | .withdraw l t h => some (l, t, .withdraw h)
  | .declareInflow l t p r => some (l, t, .declareInflow p r)
  | .takeLocal l t c => some (l, t, .takeLocal c)
  | .setOpening l t c o => some (l, t, .setOpening c o)
  | .releaseLocal l t c => some (l, t, .releaseLocal c)
  | .clearFault l t c => some (l, t, .clearFault c)
  | .resetTrip l t c => some (l, t, .resetTrip c)
  | .bringUp l t c => some (l, t, .bringUp c)
  | .queryClaim l t i => some (l, t, .query 1 i)
  | .queryPoolForecast l t i => some (l, t, .query 2 i)
  | .queryDamPlan l t i => some (l, t, .query 3 i)
  | .queryChannel l t i => some (l, t, .query 4 i)
  | .queryReachQueue l t i => some (l, t, .query 5 i)
  | .queryLinkState l t i => some (l, t, .query 6 i)
  | .queryFaultCapture l t i => some (l, t, .query 7 i)
  | .queryIdentity l t i => some (l, t, .query 8 i)
  | .readConditions l t => some (l, t, .readConditions)
  | .setMask l t m => some (l, t, .setMask m)
  | .resume l t => some (l, t, .resume)
  | .hold l t => some (l, t, .hold)
  | .enterService l t => some (l, t, .enterService)
  | .leaveService l t => some (l, t, .leaveService)
  | .writeTable l t r i => some (l, t, .writeTable r i)
  | .storeSettings l t => some (l, t, .storeSettings)
  | .restart l t => some (l, t, .restart)
  | .powerOn | .loadComplete | .clockWrap | .gaugeReading _ _ _ | .gaugeTimerExpiry _ | .passTimerExpiry
  | .routingUpkeep | .baseForecast | .sweep | .forcing | .publish | .passCompletion | .positionReport _ _
  | .tripAssertion _ | .tripRelease _ | .rampStep _ | .trackingTimerExpiry _ | .feedbackTimerExpiry _
  | .bringupTimerExpiry _ | .claimStartReached _ | .claimEndReached _ | .frameDiscarded _ _
  | .linkTimerExpiry _ | .lineBreak _ | .frameSent _ | .storeStepDone | .storeComplete | .storeFailure => none

/-- A reply is given: it is the frame a link has begun to send, or the last of its buffer, formed and waiting its turn. -/
def Link.gives (x : Link) (kind tag : Nat) (body : ReplyBody) : Prop :=
  x.sending = some (.reply kind tag body) ∨
    x.buffer.getLast? = some { kind := kind, tag := tag, reply := some body }

/-- A link that is up with room in its buffer takes a request. -/
abbrev State.takes (s : State) (l : Nat) : Prop := (s.linkAt l).up = true ∧ (s.linkAt l).full = false

/-- R147: supervision by a valid frame, as a link that is up takes it. -/
abbrev Link.supervised (x y : Link) (now timeout : Nat) : Prop :=
  y.up = true ∧ y.timer = some (now + timeout) ∧ y.lastFrame = some now ∧ y.rx = [] ∧ y.mask = x.mask

/-- What the Condition Unit holds for a link is the same. -/
abbrev Link.sameConditions (x y : Link) : Prop :=
  y.latched = x.latched ∧ y.band = x.band ∧ y.statusPending = x.statusPending

/-- R149: the reply of a request answered at once: begun where it is alone before an idle transmitter, and else formed at the end
of the buffer, waiting for the transmitter if it is the first. That a request leaves the buffer as its reply begins is the model's
(log entry 6). -/
abbrev Link.answered (x y : Link) (kind tag : Nat) (body : ReplyBody) : Prop :=
  if x.buffer = [] ∧ x.sending = none then
    y.buffer = [] ∧ y.sending = some (.reply kind tag body) ∧ y.waiting = []
  else
    y.buffer = x.buffer ++ [{ kind := kind, tag := tag, reply := some body }] ∧ y.sending = x.sending ∧
      y.waiting = x.waiting ++ (if x.buffer = [] then [.first] else [])

/-- The contents of the STATUS frame that a link is sending: mode, published indication, latched kinds and band flags. -/
def Link.statusSent (x : Link) : Option (Mode × Bool × BitVec 12 × BitVec 6) :=
  match x.sending with
  | some (.status m p v w) => some (m, p, v, w)
  | _ => none

/-- R164, R149: the STATUS frame that kinds latching on a link give. One that is unmasked, on a link that is up with its flag clear,
sets the flag and sends one STATUS frame: begun at once on an idle transmitter with what is latched then, and else behind what waits.
A masked kind, and any kind while the flag is set or the link is down, sends none. -/
abbrev Link.statusFor (x y : Link) : Prop :=
  (x.up = true → x.statusPending = false → y.latched &&& ~~~x.mask ≠ x.latched &&& ~~~x.mask →
    y.statusPending = true ∧
    (x.sending = none → x.waiting = [] → y.waiting = [] ∧ ∃ q, y.statusSent = some q ∧
      q.2.2.1 &&& ~~~x.mask ≠ 0#12 ∧ x.latched ||| q.2.2.1 = q.2.2.1 ∧ q.2.2.1 ||| y.latched = y.latched ∧
      q.2.2.2 ||| (x.band ||| y.band) = x.band ||| y.band) ∧
    (x.sending.isSome = true → y.sending = x.sending ∧ y.waiting = x.waiting ++ [.status])) ∧
  ((x.up = false ∨ x.statusPending = true ∨ y.latched &&& ~~~x.mask = 0#12) →
    y.statusPending = x.statusPending ∧ y.sending = x.sending ∧ y.waiting = x.waiting)

/-- Kinds may latch on a link, its band flags change, and the STATUS frame that the kinds give be raised; nothing else happens to it. -/
abbrev Link.latchesStatus (x y : Link) : Prop :=
  y = { x with
    latched := y.latched, band := y.band, statusPending := y.statusPending, sending := y.sending
    waiting := y.waiting } ∧
  x.latched ||| y.latched = y.latched ∧ x.statusFor y

/-- Conditions may latch and the STATUS frame they give be raised on a link, band flags may be set, and nothing else happens to it. -/
abbrev Link.onlyLatches (x y : Link) : Prop := x.latchesStatus y ∧ x.band ||| y.band = y.band

/-- R164: a STATUS frame begun at once carries the mode and the published indication of before or after the command, and band flags of
pools in the link's scope alone. -/
abbrev State.statusContents (s t : State) : Prop :=
  ∀ m, (s.linkAt m).sending = none → ∀ q, (t.linkAt m).statusSent = some q →
    (q.1 = s.mode ∨ q.1 = t.mode) ∧ (q.2.1 = s.forecast.isSome ∨ q.2.1 = t.forecast.isSome) ∧
    ∀ k ∈ sixNumbers, q.2.2.2 &&& bandBit k = bandBit k → s.inScope k m = true ∨ t.inScope k m = true

/-- Conditions may latch on any link, and nothing else happens to the links. -/
abbrev State.linksOnlyLatch (s t : State) : Prop :=
  (∀ m, (s.linkAt m).onlyLatches (t.linkAt m)) ∧ s.statusContents t

/-- R162, R34: the band flags: one is set on every link in the scope of a pool whose storage basis is found out of band by its limit
storages as an evaluation takes it, and every other one stays as it is. -/
abbrev State.bandsSet (s t : State) (evaluated : Nat → Prop) : Prop :=
  ∀ l ∈ linkNumbers, ∀ k ∈ sixNumbers,
    ((t.linkAt l).band &&& bandBit k = bandBit k ↔ (s.linkAt l).band &&& bandBit k = bandBit k ∨
      (evaluated k ∧ s.inScope k l = true ∧ ∃ v, (t.poolAt k).basis = some v ∧
        (v < (s.limitsAt k).floor ∨ (s.limitsAt k).ceiling < v)))

/-- A request on link l is answered at once, and its frame and its reply are all that happens on the links. -/
abbrev State.answers (s t : State) (l kind tag : Nat) (body : ReplyBody) : Prop :=
  (∀ m, m ≠ l → t.linkAt m = s.linkAt m) ∧
  (s.linkAt l).supervised (t.linkAt l) s.clock (s.active.link l).timeout ∧
  (s.linkAt l).sameConditions (t.linkAt l) ∧
  (s.linkAt l).answered (t.linkAt l) kind tag body

/-- A request on link l is answered at once and has no other effect than its frame. -/
abbrev State.onlyAnswers (s t : State) (l kind tag : Nat) (body : ReplyBody) : Prop :=
  t = { s with links := t.links } ∧ s.answers t l kind tag body

/-- R147, R149: a request on link l is taken, conditions latch on the links in the way given, and then the request is answered. That
it is answered last is log entry 6. -/
def State.answersAfter (s t : State) (latches : Link → Link → Prop) (l kind tag : Nat) (body : ReplyBody) : Prop :=
  (∀ m, m ≠ l → latches (s.linkAt m) (t.linkAt m)) ∧ s.statusContents t ∧
  ∃ z : Link,
    latches { s.linkAt l with
      rx := [], timer := some (s.clock + (s.active.link l).timeout), lastFrame := some s.clock } z ∧
    t.linkAt l = { z with
      buffer := (t.linkAt l).buffer, sending := (t.linkAt l).sending, waiting := (t.linkAt l).waiting } ∧
    z.answered (t.linkAt l) kind tag body

/-- A request on link l is answered at once, while conditions may latch on every link. -/
abbrev State.answersAmid (s t : State) (l kind tag : Nat) (body : ReplyBody) : Prop :=
  s.answersAfter t Link.onlyLatches l kind tag body

/-- A request that the link takes and the checks of R150 pass. -/
abbrev State.admits (s : State) (l : Nat) (r : Request) : Prop :=
  s.takes l ∧ (s.linkAt l).ok ∧ s.refusal l r = none

/-! ### The clock -/

/-- R175 (log entry 1): the events of a second: the timers that expire, and the starts and ends of claims that are reached. -/
def State.isDue (s : State) : Instr → Prop
  | .gaugeTimerExpiry g => isGauge g = true ∧ s.due (s.gauge g).timer = true
  | .passTimerExpiry => s.due s.pass.timer = true
  | .rampStep c => isChannel c = true ∧ s.due (s.chan c).rampTimer = true
  | .trackingTimerExpiry c => isChannel c = true ∧ s.due (s.chan c).trackTimer = true
  | .feedbackTimerExpiry c => isChannel c = true ∧ s.due (s.chan c).feedbackTimer = true
  | .bringupTimerExpiry c => isChannel c = true ∧ s.due (s.chan c).bringupTimer = true
  | .claimStartReached n => ∃ c ∈ s.claims, slotOf c.handle = n ∧ c.start = s.clock ∧ c.grant ≠ 0
  | .claimEndReached n =>
      ∃ c ∈ s.claims, slotOf c.handle = n ∧ (∃ e, c.finish = some e ∧ e ≤ s.clock) ∧ c.reached = false
  | .linkTimerExpiry l => isLink l = true ∧ s.due (s.linkAt l).timer = true
  | _ => False

/-- Every link has latched a kind. -/
abbrev State.allLatched (s : State) (c : Condition) : Prop := ∀ l ∈ linkNumbers, (s.linkAt l).latched &&& c.bit = c.bit

/-- R160: every link in the scope of dam and pool k, by the records of a state, has latched a kind. -/
abbrev State.latchedFor (s t : State) (c : Condition) (k : Nat) : Prop :=
  ∀ l ∈ linkNumbers, s.inScope k l = true → (t.linkAt l).latched &&& c.bit = c.bit

/-- R160: what latches, both ways: of the kinds that are not set aside, a link has latched exactly those it had latched before and those
that are raised for it. -/
abbrev State.latchesExactly (s t : State) (aside : List Condition) (raised : Condition → Nat → Prop) : Prop :=
  ∀ l ∈ linkNumbers, ∀ c, c ∉ aside →
    ((t.linkAt l).latched &&& c.bit = c.bit ↔ (s.linkAt l).latched &&& c.bit = c.bit ∨ raised c l)

/-- The kinds that a recompute of targets (R124) and an outflow report (R40) latch. -/
def flowKinds : List Condition := [.spillShortfall, .routingCoarsened]

/-! ### Arrivals -/

/-- R45, R44: the volume of a queue's water that arrives over the seconds from a, included, to e, excluded. -/
def arrivals (travel : Nat) (queue : List RoutingStep) (a e : Nat) : Nat :=
  ((List.range (e - a)).map fun i => rateAt travel queue (a + i)).sum

/-! ### Passes and channels -/

/-- R53: the gauge of a configured pool is in AWAIT. -/
abbrev State.poolAwaits (s : State) : Prop := ∃ k ∈ s.active.damNumbers, (s.gauge k).state = .await

/-- R29, R42: the routed inflow volume of pool k that a pass reads at the present second. -/
def State.routedVolume (s : State) (k : Nat) : Nat :=
  let above := s.reachAt (k - 1)
  if k = 1 ∨ above.queue = [] then 0
  else above.arrived + arrivals (s.active.reach (k - 1)).travel above.queue above.cut s.clock

/-- R29: the lateral inflow volume of pool k from a pass basis to the present second. -/
def State.lateralSince (s : State) (k : Nat) (q : PassBasis) : Nat :=
  sumOver binNumbers fun j =>
    get1 (s.poolAt k).rates j *
      ((if j = 12 then s.clock else min s.clock (q.time + j * q.bin)) - (q.time + (j - 1) * q.bin))

/-- R29, R37: the outflow volume of dam k that a pass reads at the present second. -/
def State.outflowVolume (s : State) (k : Nat) : Nat :=
  (s.damAt k).volume + (s.damAt k).outflow * (s.clock - (s.damAt k).mark)

/-- R29, R59, R37: what a pass that becomes RUNNING at the present second takes of pool k and of its dam. The basis of a pool that is
not LOST is the one it holds, that of a LOST one is reckoned within its table's storages, and a pool with no basis, or a LOST one with
no previous pass basis, takes the assumed storage. The declaration binds, and the accumulator is read. -/
abbrev State.basisTaken (s t : State) (k : Nat) : Prop :=
  let r := s.active.pool k
  let p := s.poolAt k
  let y := t.poolAt k
  let assumed := r.storageAt (r.floor + (r.ceiling - r.floor) / 2)
  y.basis.isSome = true ∧
  y.passBasis = some { storage := y.basis.getD 0, time := s.clock, bin := s.active.pass.binLength } ∧
  ((s.gauge k).state ≠ .lost → y.basis = some (p.basis.getD assumed)) ∧
  ((s.gauge k).state = .lost → p.passBasis = none → y.basis = some assumed) ∧
  ((s.gauge k).state = .lost → ∀ q, p.passBasis = some q →
    (y.basis.getD 0 : Int) = max ((get0 r.points 0).2 : Int) (min ((get0 r.points 8).2 : Int)
      ((q.storage : Int) + s.routedVolume k + s.lateralSince k q - s.outflowVolume k))) ∧
  y.declared = none ∧ y.rates = p.rates ∧ y.reckoning = p.reckoning ∧
  get1 t.pass.rates k = p.passRates s.forecast s.clock s.active.pass.binLength ∧
  (t.damAt k).volume = 0 ∧ (t.damAt k).mark = s.clock

/-- R53, R63: a pass becomes RUNNING at the present second with stage 2 to make next, and takes the basis of every configured pool; each
seeded reach is read (R42), and an unseeded one and what is not configured are left alone. -/
abbrev State.basesTaken (s t : State) : Prop :=
  t.pass.state = .running ∧ t.pass.stage = .routing ∧
  t.pass.forecast.start = s.clock ∧ t.pass.forecast.bin = s.active.pass.binLength ∧
  (∀ k ∈ sixNumbers, s.active.hasDam k = true → s.basisTaken t k) ∧
  (∀ k, s.active.hasDam k = false → t.poolAt k = s.poolAt k ∧ t.damAt k = s.damAt k) ∧
  (∀ k, (s.active.hasReach k = false ∨ (s.reachAt k).queue = []) → t.reachAt k = s.reachAt k) ∧
  (∀ k ∈ sixNumbers, s.active.hasReach k = true → (s.reachAt k).queue ≠ [] →
    (t.reachAt k).arrived = 0 ∧ (t.reachAt k).cut = s.clock)

/-- R53, R51: a pass starts, its timer restarted: DEFERRED, with no bases taken, exactly where a configured pool is in AWAIT, and RUNNING
otherwise. -/
abbrev State.passStarted (s t : State) : Prop :=
  let timer := some (s.clock + s.active.pass.period)
  if s.poolAwaits then t.pass = { s.pass with state := .deferred, timer := timer } ∧ t.pools = s.pools
  else s.basesTaken t ∧ t.pass.again = s.pass.again ∧ t.pass.timer = timer

/-- R52: what an early-pass request leaves while the part runs: a pass in flight is to be followed by another, and otherwise one
has started. -/
abbrev State.passRequested (s t : State) : Prop :=
  if s.inFlight then t.pass = { s.pass with again := true } ∧ t.pools = s.pools else s.passStarted t

/-- R66: the claim table of a sweep from s to t as it stands when the claims given have been taken. -/
def State.sweptTable (s t : State) (taken : List Claim) : List Claim :=
  s.claims.map fun c => if taken.any (·.handle == c.handle) then (t.claimOf c.handle).getD c else c

/-- What the actuator line of a channel and its hold are stays: no command is sent, no hold changes, the setpoint, the measured
position and the state's timers stand. -/
abbrev Channel.undisturbed (x y : Channel) : Prop :=
  y = { x with
    target := y.target, targetFlow := y.targetFlow, shortfall := y.shortfall, actual := y.actual, state := y.state } ∧
  (y.state = x.state ∨ (x.inService = true ∧ y.inService = true))

/-! ### Heads and targets -/

/-- R122: the targets of dam k are those that a recompute gives. -/
abbrev State.aimed (s : State) (k : Nat) : Prop := (s.recompute k).channels = s.channels

/-- R127: the actual flow of a channel formed again at a head of its dam, by its record in a set. DEDUCED (log entry 31): in a bring-up
after CLEAR_FAULT too. -/
abbrev Channel.reformed (x : Channel) (r : ChanRec) (head : Nat) : Nat :=
  if x.state = .fault then x.actual else (x.measured.map fun m => r.flow m head).getD x.actual

/-- R33, R127, R128, R122: at every dam whose head has changed the flows are formed again, a change of one being reported as outflow,
and the targets recomputed. -/
abbrev State.headsFollowed (s t : State) : Prop :=
  ∀ k ∈ sixNumbers, s.active.hasDam k = true → t.head k ≠ s.head k →
    let own := s.active.damChannels k
    (∀ c ∈ own, (t.chan c).actual = (s.chan c).reformed (s.active.channel c) (t.head k)) ∧ t.aimed k ∧
    ((∃ c ∈ own, (t.chan c).actual ≠ (s.chan c).actual) →
      (t.damAt k).outflow = sumOver own (fun c => (t.chan c).actual) ∧ (t.damAt k).mark = s.clock)

/-- R33, R128: the level notices of one event, whole: a dam whose head stands is left alone; at any other, each channel whose flow changes
gives one outflow report, in ascending order, with the sum as it then stands. The accumulators and the reaches before it are those of
a state. -/
abbrev State.levelNoticed (s before t : State) : Prop :=
  s.headsFollowed t ∧ ∀ k ∈ sixNumbers, s.active.hasDam k = true →
    let own := s.active.damChannels k
    let changed := own.filter fun c => (t.chan c).actual ≠ (s.chan c).actual
    let reported := changed.foldl (fun u c => u.outflowReport k
      (sumOver own fun d => if d ≤ c then (t.chan d).actual else (s.chan d).actual)) before
    t.damAt k = reported.damAt k ∧ t.reachAt k = reported.reachAt k ∧
    (t.head k = s.head k → ∀ c ∈ own, t.chan c = s.chan c)

/-! ### The spill distribution -/

/-- R123 step 2: an amount divided among the uncapped channels of a list in ascending order: each takes the floor share, and the lowest of
them, as many as the remainder has FU, 1 FU more. -/
def dealt (amount : Nat) (l : List Share) : List Share :=
  let n := l.countP fun x => !x.capped
  l.mapIdx fun i x =>
    if x.capped = true then x
    else { x with share := x.share + amount / n + if (l.take i).countP (fun y => !y.capped) < amount % n then 1 else 0 }

/-- R123 step 3: is the channel to be capped? -/
abbrev Share.over (x : Share) : Prop := x.capped = false ∧ x.capacity < x.share

/-- R123, R124: the rounds of the spill distribution, from an amount to place and the shares so far to the shares at its end and the
shortfall: with every channel capped it ends, in shortfall where flow is left to place; where a round leaves no channel over its
capacity it is complete; and else the channels over theirs are capped and the sum of their surpluses goes into another round. -/
inductive SpillRounds : Nat → List Share → List Share × Bool → Prop
  | full (amount : Nat) (l : List Share) : (∀ x ∈ l, x.capped = true) → SpillRounds amount l (l, decide (0 < amount))
  | complete (amount : Nat) (l : List Share) : (∃ x ∈ l, x.capped = false) → (∀ x ∈ dealt amount l, ¬ x.over) →
      SpillRounds amount l (dealt amount l, false)
  | again (amount : Nat) (l : List Share) (r : List Share × Bool) : (∃ x ∈ dealt amount l, x.over) →
      SpillRounds (sumOver ((dealt amount l).filter (·.over)) fun x => x.share - x.capacity)
        ((dealt amount l).map fun x => if x.over then { x with share := x.capacity, capped := true } else x) r →
      SpillRounds amount l r

/-! ### Reaches -/

/-- R41, R40: a seeded reach retired to a cut: the arrived water is counted; the steps dropped are those whose successor has arrived
by the cut; and the coarsened flag is cleared where steps were dropped and at most 24 are left. -/
abbrev Reach.retiredTo (x y : Reach) (travel cut : Nat) : Prop :=
  y.cut = cut ∧ y.arrived = x.arrived + arrivals travel x.queue x.cut cut ∧
  ∃ n < x.queue.length, y.queue = x.queue.drop n ∧
    (∀ i ≤ n, 1 ≤ i → ∀ p, x.queue[i]? = some p → p.departure + travel ≤ cut) ∧
    (∀ p, x.queue[n + 1]? = some p → cut < p.departure + travel) ∧
    y.coarsened = (x.coarsened && !decide (0 < n ∧ x.queue.length - n ≤ 24))

/-- R41: a seeded reach whose arrived water is counted to a cut, with no step removed. -/
abbrev Reach.countedTo (x y : Reach) (travel cut : Nat) : Prop :=
  y = { x with arrived := x.arrived + arrivals travel x.queue x.cut cut, cut := cut }

/-- R39 steps 2 to 5, R40: a reach made ready by step 1, after a push of q at a time. -/
abbrev Reach.pushed (x y : Reach) (deadband now q : Nat) : Prop :=
  ∀ newest, x.queue.getLast? = some newest →
    if q = newest.flow ∨ absDiff q newest.flow < deadband then y = x
    else if newest.departure = now then
      y = { x with queue := x.queue.dropLast ++
        [{ flow := if x.queue.length = 32 then max newest.flow q else q, departure := now }] }
    else if x.queue.length < 32 then y = { x with queue := x.queue ++ [{ flow := q, departure := now }] }
    else y = { x with
      queue := x.queue.dropLast ++ [{ newest with flow := max newest.flow q }], coarsened := true }

/-! ### Changes of a forecast -/

/-- R60: what a release of g FU at dam k of n, over the seconds from u to e, adds to F of pool j in bin b. -/
abbrev releaseOnF (f : Forecast) (n travel k g u e j b : Nat) : Int :=
  let t : Int := (f.start + b * f.bin : Nat)
  if j = k then -((g : Int) * max 0 (min (e : Int) t - u))
  else if j = k + 1 ∧ k < n then (g : Int) * max 0 (min ((e + travel : Nat) : Int) t - (u + travel : Nat))
  else 0

/-- R60: what it adds to P of pool j in bin b. -/
abbrev releaseOnP (f : Forecast) (k g u e j b : Nat) : Int :=
  if j = k ∧ u < e ∧ u < f.start + b * f.bin ∧ f.start + (b - 1) * f.bin < e then (g : Int) else 0

/-- R60: what its removal adds to P of pool j in bin b. -/
abbrev removalOnP (f : Forecast) (k g u e j b : Nat) : Int :=
  if j = k ∧ u ≤ f.start + (b - 1) * f.bin ∧ f.start + (b - 1) * f.bin < e then -(g : Int) else 0

/-- R61: what a change of c FU of the constant part of dam k of n, from u on, adds to F of pool j in bin b. -/
abbrev constantOnF (f : Forecast) (n travel k : Nat) (c : Int) (u j b : Nat) : Int :=
  let t : Int := (f.start + b * f.bin : Nat)
  if j = k then -(c * max 0 (t - u))
  else if j = k + 1 ∧ k < n then c * max 0 (t - (u + travel : Nat))
  else 0

/-- R61: what it adds to P of pool j in bin b. -/
abbrev constantOnP (f : Forecast) (k : Nat) (c : Int) (u j b : Nat) : Int :=
  if j = k ∧ ((0 ≤ c ∧ u < f.start + b * f.bin) ∨ (c < 0 ∧ u ≤ f.start + (b - 1) * f.bin)) then c else 0

/-- A forecast is another one with changes added to F and to P of each pool in each bin. -/
abbrev Forecast.changedBy (f g : Forecast) (onF onP : Nat → Nat → Int) : Prop :=
  g.start = f.start ∧ g.bin = f.bin ∧ ∀ j ∈ sixNumbers, ∀ b ∈ binNumbers,
    (g.pool j).F b = (f.pool j).F b + onF j b ∧ (g.pool j).P b = (f.pool j).P b + onP j b

/-- The sum over a list of claims of a signed amount. -/
def sumClaims (l : List Claim) (x : Claim → Int) : Int := (l.map x).sum

/-- The sum over the numbers of the six dams of a signed amount. -/
def sumDams (x : Nat → Int) : Int := (sixNumbers.map x).sum

/-! ### Activation -/

/-- R19, R116, R161: what an activation of the working set leaves. -/
abbrev State.activated (s t : State) : Prop :=
  t.mode = .hold ∧ t.active = s.working ∧ t.working = s.working ∧ t.limits = s.working.limits ∧
  t.allLatched .modeChanged ∧
  (∀ m, (s.linkAt m).latchesStatus (t.linkAt m)) ∧ s.statusContents t ∧
  (∀ c, (s.working.damOf c).isSome = true → c < 32 → (t.chan c).state ≠ .offline) ∧
  (∀ c, (s.working.damOf c).isSome = false → (t.chan c).state = .offline ∨ (s.active.damOf c).isSome = false) ∧
  (∀ d ∈ t.claims, d.removedBy s.active s.working = false) ∧
  (∀ c h, c < 32 → (s.working.damOf c).isSome = true → (t.chan c).holder = some h →
    (s.working.link h).cls = .station ∧ (s.working.link h).dam = (s.working.damOf c).getD 0) ∧
  t.loadResult = s.loadResult ∧ t.resetCause = s.resetCause ∧ t.store = s.store ∧ t.clock = s.clock ∧
  t.pending = s.pending ∧ t.intake = s.intake ∧ t.leaving = s.leaving ∧ t.capture = s.capture ∧
  t.tripLines = s.tripLines ∧ t.generations = s.generations

/-- R19, R113, R71, R161, R97: what an activation of the working set makes of claims, dam plans, gauges, the published forecast and the
band flags. A pass that starts with it changes nothing of these but band flags it sets. DEDUCED (log entry 23): the forecast's changes take
the new travel times. -/
abbrev State.realigned (s t : State) : Prop :=
  let old := s.active
  let new := s.working
  let gone := s.claims.filter fun c => c.removedBy old new
  let left := s.claims.filter fun c => !c.removedBy old new
  let fall := fun (k : Nat) => (sumOver (t.planAt k).entries (·.flow) : Int) - sumOver (s.planAt k).entries (·.flow)
  let travel := fun (k : Nat) => (new.reach k).travel
  t.claims = left ∧
  (s.latchesExactly t flowKinds fun c l =>
    c = .modeChanged ∨ (c = .claimEnded ∧ ∃ d ∈ gone, d.owner = l) ∨
    (c = .unitTrip ∧ ∃ u ∈ channelNumbers, ∃ k, new.damOf u = some k ∧ (new.channel u).kind = .turbine ∧
      ¬ (old.damOf u = some k ∧ (old.channel u).kind = .turbine) ∧ s.tripLine u = true ∧ t.inScope k l)) ∧
  (∀ k ∈ sixNumbers, new.hasDam k = false → t.planAt k = {}) ∧
  (∀ k ∈ sixNumbers, new.hasDam k = true → t.planAt k = { s.planAt k with
    entries := ((s.planAt k).entries.map fun e =>
        if gone.any (fun d => decide (d.kind = .turbine e.unit ∧ d.dam = k ∧ d.held.isSome = true)) = true then
          { e with flow := min e.flow (sumOver (left.filter fun d => d.kind = .turbine e.unit) (·.held.getD 0)) }
        else e).filter fun e =>
      0 < e.flow ∧ new.inDam k e.unit = true ∧ (new.channel e.unit).kind = .turbine }) ∧
  ((new.cascade.damCount ≠ old.cascade.damCount ∨ s.forecast = none) → t.forecast = none) ∧
  (new.cascade.damCount = old.cascade.damCount → ∀ f, s.forecast = some f → ∃ g, t.forecast = some g ∧ f.changedBy g
    (fun j b =>
      (sumClaims gone fun d =>
        -releaseOnF f s.damCount (travel d.dam) d.dam d.grant (max d.start s.clock)
          (d.finish.getD (f.start + 12 * f.bin)) j b) +
      sumDams fun k => constantOnF f s.damCount (travel k) k (fall k) s.clock j b)
    (fun j b =>
      (sumClaims gone fun d =>
        removalOnP f d.dam d.grant (max d.start s.clock) (d.finish.getD (f.start + 12 * f.bin)) j b) +
      sumDams fun k => constantOnP f k (fall k) s.clock j b)) ∧
  (∀ g, t.gauge g =
    if t.gaugeConfigured g = true then
      if s.gaugeConfigured g = true then s.gauge g else { timer := some (s.clock + t.gaugeTimeout g) }
    else {}) ∧
  ∀ l ∈ linkNumbers, ∀ k ∈ sixNumbers,
    (new.hasDam k = false → (t.linkAt l).band &&& bandBit k = 0#6) ∧
    (new.hasDam k = true → (s.linkAt l).band &&& bandBit k = bandBit k → (t.linkAt l).band &&& bandBit k = bandBit k)

/-- R116, R117, R122: what an activation of the working set makes of the channels. One that stays configured in its dam and of its kind
keeps setpoint, measured position, command, fault kind and timers, and a hold whose holder is still a STATION link of its dam; its
flow is formed again by the new records. One placed OFFLINE keeps nothing but what its actuator was last sent, and is brought up where
it is configured, a unit with its trip input asserted going to TRIPPED. That a target flow and a shortfall mark go too is log entry
30. -/
abbrev State.rechanneled (s t : State) : Prop :=
  let old := s.active
  let new := s.working
  (∀ k ∈ sixNumbers, new.hasDam k = true → t.aimed k) ∧
  ∀ c ∈ channelNumbers,
    let x := s.chan c
    let y := t.chan c
    let r := new.channel c
    let stays := old.damOf c = new.damOf c ∧ (old.channel c).kind = r.kind
    (old.damOf c = none → new.damOf c = none → y = x) ∧
    (old.damOf c ≠ none → new.damOf c = none → y = { command := x.command, commandCount := x.commandCount }) ∧
    (∀ k, new.damOf c = some k → stays →
      y = { x with
        state := y.state, target := y.target, targetFlow := y.targetFlow, shortfall := y.shortfall, actual := y.actual
        holder := y.holder, localOpening := y.localOpening, orphan := y.orphan } ∧
      (y.state = x.state ∨ (x.inService = true ∧ y.inService = true)) ∧
      y.actual = x.reformed r (t.head k) ∧
      (x.holder = none → y.holder = none ∧ y.localOpening = x.localOpening ∧ y.orphan = x.orphan) ∧
      (∀ l, x.holder = some l →
        if (new.link l).cls = .station ∧ (new.link l).dam = k then
          y.holder = x.holder ∧ y.localOpening = x.localOpening ∧ y.orphan = x.orphan
        else y.holder = none ∧ y.localOpening = none ∧ y.orphan = false)) ∧
    (∀ k, new.damOf c = some k → ¬ stays →
      if r.kind = .turbine ∧ s.tripLine c = true then
        y = { command := x.command, commandCount := x.commandCount, state := .tripped, target := some 0, targetFlow := some 0 } ∧
        t.latchedFor t .unitTrip k
      else y = { command := x.command, commandCount := x.commandCount, state := .bringup
                 bringupTimer := some (s.clock + r.bringupTimeout) })

/-- R19: the pool k that an activation of the working set leaves. DEDUCED (log entry 23): a pool whose record stands is left alone. -/
def State.poolRealigned (s : State) (k : Nat) : Pool :=
  let r := s.working.pool k
  let p := s.poolAt k
  if s.working.hasDam k = false ∨ s.active.hasDam k = false then {}
  else if s.active.pool k = r then p
  else { p with basis := match (s.gauge k).state with
    | .good => (s.gauge k).accepted.map r.storageAt
    | .lost => p.basis.map fun v => min (max v r.lowest) r.highest
    | .await => p.basis }

/-- R128, R49: does an activation that leaves t give an outflow report of dam k? -/
abbrev State.reportsAnew (s t : State) (k : Nat) : Prop :=
  ∃ c ∈ channelNumbers, s.active.damOf c = some k ∧ (t.chan c).actual ≠ (s.chan c).actual

/-- R19, R49, R34: what an activation of the working set makes of pools, outflow accumulators, reaches and band flags, before any pass
takes its bases. An outflow report brings the accumulator up, and its pushes count the arrived water, up to the start of a RUNNING pass.
That only a pool whose record changed has its band evaluated is log entry 23. -/
abbrev State.rerouted (s t : State) : Prop :=
  let old := s.active
  let new := s.working
  let d := s.damAt
  let cut := if s.pass.state = .running then s.pass.forecast.start else s.clock
  ∀ k ∈ sixNumbers,
    t.poolAt k = s.poolRealigned k ∧
    (new.hasDam k = false → t.damAt k = {}) ∧
    (new.hasDam k = true → old.hasDam k = false → t.damAt k = { outflow := 0, volume := 0, mark := s.clock }) ∧
    (new.hasDam k = true → old.hasDam k = true →
      (¬ s.reportsAnew t k → t.damAt k = d k) ∧
      (s.reportsAnew t k → t.damAt k =
        { outflow := sumOver (new.damChannels k) fun c => (t.chan c).actual
          volume := (d k).volume + (d k).outflow * (s.clock - (d k).mark), mark := s.clock })) ∧
    (new.hasReach k = false → t.reachAt k = {}) ∧
    (new.hasReach k = true →
      (((s.reachAt k).queue = [] ∨ ¬ s.reportsAnew t k) → t.reachAt k = s.reachAt k) ∧
      ((s.reachAt k).queue ≠ [] → s.reportsAnew t k →
        (t.reachAt k).queue ≠ [] ∧ (t.reachAt k).cut = cut ∧
        (t.reachAt k).arrived = (s.reachAt k).arrived +
          arrivals (new.reach k).travel (s.reachAt k).queue (s.reachAt k).cut cut)) ∧
    ∀ l ∈ linkNumbers, new.hasDam k = true →
      ((t.linkAt l).band &&& bandBit k = bandBit k ↔ (s.linkAt l).band &&& bandBit k = bandBit k ∨
        (old.hasDam k = true ∧ old.pool k ≠ new.pool k ∧ t.inScope k l = true ∧
          ∃ v, (s.poolRealigned k).basis = some v ∧
            (v < (new.pool k).storageAt (new.pool k).floor ∨ (new.pool k).storageAt (new.pool k).ceiling < v)))

end Sys2Proof.Machine
end

