-- ==== Sys2Proof/Certificates/Slice0/Obligations.lean ====
section
/-! DEFINITION. The statements about the part, for the provers: the rules of spec/ as properties of the commands, of the shared
operations and of every step. -/

open Sys2Proof Sys2Proof.Machine

/-! ### The queue, reset and the modes -/

/-- With command c at the front of the queue, a step is c's meaning on the state with the queue's rest. -/
def Obligations.StepTakesTheFront : Prop :=
  ∀ (c : Instr) (rest : List Instr) (s : State), s.pending = c :: rest → step s = exec c { s with pending := rest }

/-- With no command waiting a second passes, and exactly the events of that second join the queue; the second after the last one
brings the wrap alone. The model's choice (log entry 1). -/
def Obligations.EmptyQueueLetsASecondPass : Prop :=
  ∀ s : State, s.pending = [] →
    (s.clock < 4294967295 → ∃ t, step s = .next t ∧
      t = { s with clock := s.clock + 1, pending := t.pending } ∧ ∀ c, c ∈ t.pending ↔ t.isDue c) ∧
    (s.clock = 4294967295 → step s = .next { s with pending := [.clockWrap] })

/-- A command ends in a next state exactly when its operands are well formed, and is refused by name otherwise (log entry 24). -/
def Obligations.WellFormedCommandsComplete : Prop :=
  ∀ (c : Instr) (s : State),
    (c.wf = true → ∃ t, exec c s = .next t) ∧ (c.wf = false → exec c s = .refused .illFormed)

/-- What the part holds right after power-on, and that it meets every invariant below. -/
def Obligations.ResetState : Prop :=
  let s := State.reset
  s.mode = .loading ∧ s.resetCause = .powerOn ∧ s.loadResult = .loading ∧ s.clock = 0 ∧
  s.active = emptySet ∧ s.working = emptySet ∧ s.active.cascade.damCount = 0 ∧
  (∀ g, s.gauge g = {}) ∧ (∀ k, s.poolAt k = {} ∧ s.damAt k = {} ∧ s.reachAt k = {} ∧ s.planAt k = {}) ∧
  s.pass.state = .idle ∧ s.pass.timer = none ∧ s.forecast = none ∧ s.claims = [] ∧ s.intake = [] ∧
  (∀ n < 64, get0 s.generations n = 0) ∧ (∀ c, s.chan c = {}) ∧ (∀ l, s.linkAt l = {}) ∧ s.capture = none ∧
  s.store.writing = none ∧ s.store.result = .none ∧
  s.openingsOk ∧ s.channelsOk ∧ s.claimsOk ∧ s.plansOk ∧ s.reachesOk ∧ s.linksOk ∧ s.captureOk ∧ s.storeOk ∧ s.quietOk ∧
  s.setOk ∧ s.unitsOk ∧ s.sweepReady ∧ s.grantless ∧ s.grantsByMode

/-- Power-on and the wrap of the clock enter LOADING from any state: everything takes its reset value but the reset cause, the
stored image with its checksum field, the trip lines (log entry 9), and the waiting commands and the count of free values, which are
the model's own fields (log entry 18). A wrap before the last second has no effect (log entry 10). -/
def Obligations.EnteringLoading : Prop :=
  ∀ s : State,
    let fresh : ResetCause → State := fun cause =>
      { State.reset with
        pending := s.pending, freeCount := s.freeCount, tripLines := s.tripLines, resetCause := cause
        store := { image := s.store.image, checksum := s.store.checksum } }
    exec .powerOn s = .next (fresh .powerOn) ∧
    (s.clock = 4294967295 → exec .clockWrap s = .next (fresh .restart)) ∧
    (s.clock ≠ 4294967295 → exec .clockWrap s = .next s)

/-- The completion of the image read in LOADING, when the checksum field does not hold the image's CRC-32 (the image's layout and the
CRC's conventions are the model's, log entry 8) or the image fails validation: CONFIG_FAULT with both sets empty, MODE_CHANGED latched on
every link and no other kind on any, and nothing else. Out of LOADING it has no effect (log entry 10). In both outcomes a link that a
frame brought up in LOADING stays up, and gets the STATUS frame of the MODE_CHANGED that ends LOADING: that is the model's (log entry 33).
The completion of the image read in LOADING, when the image is valid: HOLD on that image. Every configured channel is in bring-up, or
TRIPPED where a unit's trip input is found asserted; every configured gauge's timer runs; the first pass is DEFERRED. MODE_CHANGED latches
on every link, UNIT_TRIP in the scope of the dams of the units so tripped, and no other kind on any. Validation: the tables are examined
in the order cascade, dams, pools, reaches, configured channels, links, pass setting, each by its number upward; the failure record names
the first that fails the checks of its step, and there is none where all pass. -/
def Obligations.LoadComplete : Prop :=
  (∀ s : State,
    (s.mode ≠ .loading → exec .loadComplete s = .next s) ∧
    ∀ r : LoadResult, s.mode = .loading → s.linksOk →
      ((s.store.checksum ≠ some s.store.image.checksum ∧ r = .checksumFailed) ∨
        ∃ i j, s.store.checksum = some s.store.image.checksum ∧ s.store.image.validate = some (i, j) ∧ r = .failure i j) →
      ∃ t, exec .loadComplete s = .next t ∧
        t = { s with
          mode := .configFault, loadResult := r, active := emptySet, working := emptySet
          limits := Vector.replicate 6 {}, links := t.links } ∧
        s.linksOnlyLatch t ∧ s.latchesExactly t [] fun c _ => c = .modeChanged) ∧
  (∀ s : State, s.mode = .loading → s.quiet → s.linksOk →
    s.store.checksum = some s.store.image.checksum → s.store.image.validate = none →
    ∃ t, exec .loadComplete s = .next t ∧
      t.mode = .hold ∧ t.loadResult = .valid ∧ t.active = s.store.image ∧ t.working = s.store.image ∧
      t.limits = s.store.image.limits ∧ s.linksOnlyLatch t ∧
      (s.latchesExactly t [] fun c l => c = .modeChanged ∨
        (c = .unitTrip ∧ ∃ u ∈ channelNumbers, ∃ k, s.store.image.damOf u = some k ∧
          (s.store.image.channel u).kind = .turbine ∧ s.tripLine u = true ∧ t.inScope k l)) ∧
      t.pass.state = .deferred ∧ t.pass.timer = some (s.clock + s.store.image.pass.period) ∧
      (∀ g, t.gauge g =
        if isGauge g = true ∧ t.gaugeConfigured g = true then { timer := some (s.clock + t.gaugeTimeout g) } else {}) ∧
      (∀ c ∈ channelNumbers,
        if (s.store.image.damOf c).isSome then
          if (s.store.image.channel c).kind = .turbine ∧ s.tripLine c = true then (t.chan c).state = .tripped
          else (t.chan c).state = .bringup ∧
            (t.chan c).bringupTimer = some (s.clock + (s.store.image.channel c).bringupTimeout)
        else t.chan c = s.chan c) ∧
      t = { s with
        mode := .hold, loadResult := .valid, active := t.active, working := t.working, limits := t.limits
        gauges := t.gauges, pass := t.pass, channels := t.channels, links := t.links }) ∧
  (∀ x : TableSet,
    let n := x.cascade.damCount
    let between := fun (lo v hi : Nat) => lo ≤ v ∧ v ≤ hi
    let inRange := fun (k c : Nat) =>
      (x.dam k).firstChannel ≤ c ∧ c < (x.dam k).firstChannel + (x.dam k).channelCount
    let cascadeOk := between 1 n 6 ∧ (x.cascade.tailPresent = true →
      between 5 x.cascade.tailTimeout 600 ∧ between 1 x.cascade.tailJump 500)
    let damOk := fun (k : Nat) =>
      let r := x.dam k
      r.firstChannel ≤ 31 ∧ between 1 r.channelCount 8 ∧ (k = n → r.qBelow ≤ 60000 ∧ r.tailFixed ≤ 65535) ∧
      r.firstChannel + r.channelCount - 1 ≤ 31 ∧ ∀ j < k, 1 ≤ j → ∀ c < 32, inRange k c → ¬ inRange j c
    let poolOk := fun (k : Nat) =>
      let r := x.pool k
      (∀ i < 9, (get0 r.points i).1 ≤ 65535 ∧ (get0 r.points i).2 ≤ 4000000000) ∧
      (∀ i < 8, (get0 r.points i).1 < (get0 r.points (i + 1)).1 ∧ (get0 r.points i).2 < (get0 r.points (i + 1)).2) ∧
      (get0 r.points 0).1 ≤ r.floor ∧ r.floor < r.ceiling ∧ r.ceiling ≤ r.flood ∧ r.flood ≤ (get0 r.points 8).1 ∧
      r.reserve ≤ 100000000 ∧ between 5 r.timeout 600 ∧ between 1 r.jump 500
    let reachOk := fun (k : Nat) => (x.reach k).travel ≤ 65535 ∧ (x.reach k).deadband ≤ 1000
    let channelOk := fun (c : Nat) =>
      let r := x.channel c
      (∀ i < 9, get0 r.rating i ≤ 60000) ∧ get0 r.rating 0 = 0 ∧
      (∀ i < 8, get0 r.rating i ≤ get0 r.rating (i + 1)) ∧ 1 ≤ get0 r.rating 8 ∧
      (∀ i < 5, (get0 r.heads i).1 ≤ 65535 ∧ (get0 r.heads i).2 ≤ 4095) ∧
      (∀ i < 4, (get0 r.heads i).1 < (get0 r.heads (i + 1)).1) ∧
      between 1 r.rampInterval 10 ∧ between 1 r.openLimit 200 ∧ between 1 r.closeLimit 200 ∧
      (r.kind = .turbine → between 1 r.tripLimit 1000) ∧ between 5 r.tolerance 200 ∧ between 2 r.trackTime 120 ∧
      between 1 r.feedbackTimeout 30 ∧ between 5 r.bringupTimeout 300
    let linkOk := fun (l : Nat) =>
      let r := x.link l
      between 2 r.timeout 60 ∧ r.abandon ≤ 3600 ∧ (r.cls = .station → between 1 r.dam n) ∧
      (r.cls = .service → ∀ j < l, 1 ≤ j → (x.link j).cls ≠ .service)
    let passes := fun (table i : Nat) =>
      (table = 1 → i = 0 → cascadeOk) ∧ (table = 2 → between 1 i n → damOk i) ∧
      (table = 3 → between 1 i n → poolOk i) ∧ (table = 4 → between 1 i (n - 1) → reachOk i) ∧
      (table = 5 → i < 32 → (∃ k ≤ n, 1 ≤ k ∧ inRange k i) → channelOk i) ∧
      (table = 6 → between 1 i 4 → linkOk i) ∧
      (table = 8 → i = 0 → between 30 x.pass.period 900 ∧ between 60 x.pass.binLength 3600)
    (x.validate = none ↔ ∀ table ≤ 8, ∀ i ≤ 32, passes table i) ∧
    ∀ table i, x.validate = some (table, i) ↔
      ¬ passes table i ∧ ∀ table' ≤ 8, ∀ i' ≤ 32, (table' < table ∨ (table' = table ∧ i' < i)) → passes table' i')

/-- RESUME, the HOLD request and ENTER_SERVICE change the mode at once, latch MODE_CHANGED on every link and are answered OK; the
first two request an early pass, and the one in flight after the HOLD request is to take every grant (R95); the third leaves everything
else as it was. With no pass in flight the pass asked for starts at once, DEFERRED exactly where a configured pool is in AWAIT, and
otherwise RUNNING with every basis taken. No other kind latches but those of targets and outflow that reckoned levels change.
A STATUS frame that the request raises is ready before its reply (log entry 6). -/
def Obligations.ModeRequests : Prop :=
  ∀ (s : State) (l tag : Nat), isRequest l tag = true → s.takes l → s.linksOk →
    (s.refusal l .resume = none → ∃ t, exec (.resume l tag) s = .next t ∧
      t.mode = .coordinate ∧ (s.latchesExactly t flowKinds fun c _ => c = .modeChanged) ∧ s.passRequested t ∧
      s.answersAmid t l 0x8E tag (.status .ok) ∧
      (∀ c, (s.chan c).undisturbed (t.chan c)) ∧
      t = { s with
        mode := .coordinate, pass := t.pass, pools := t.pools, dams := t.dams, reaches := t.reaches
        channels := t.channels, links := t.links }) ∧
    (s.refusal l .hold = none → ∃ t, exec (.hold l tag) s = .next t ∧
      t.mode = .hold ∧ (s.latchesExactly t flowKinds fun c _ => c = .modeChanged) ∧ s.passRequested t ∧ t.clearing ∧
      s.answersAmid t l 0x8F tag (.status .ok) ∧
      (∀ c, (s.chan c).undisturbed (t.chan c)) ∧
      t = { s with
        mode := .hold, pass := t.pass, pools := t.pools, dams := t.dams, reaches := t.reaches
        channels := t.channels, links := t.links }) ∧
    (s.refusal l .enterService = none → ∃ t, exec (.enterService l tag) s = .next t ∧
      t = { s with mode := .service, links := t.links } ∧
      (s.latchesExactly t [] fun c _ => c = .modeChanged) ∧ s.answersAmid t l 0x90 tag (.status .ok))

/-- A change of mode is one of the changes of R168, made by the command its row names; every one but an entry into LOADING latches
MODE_CHANGED on every link. Characters may carry whole frames, so FRAME_DISCARDED stands apart. -/
def Obligations.ModeChangesOnlyAsListed : Prop :=
  ∀ (c : Instr) (s t : State), exec c s = .next t → t.mode ≠ s.mode → (∀ l bytes, c ≠ .frameDiscarded l bytes) →
    (t.mode = .loading ∧ (c = .powerOn ∨ c = .clockWrap ∨ ∃ l tag, c = .restart l tag)) ∨
    (t.allLatched .modeChanged ∧
      ((s.mode = .loading ∧ c = .loadComplete ∧ (t.mode = .hold ∨ t.mode = .configFault)) ∨
        (s.mode = .hold ∧ t.mode = .coordinate ∧ ∃ l tag, c = .resume l tag) ∨
        (s.mode = .coordinate ∧ t.mode = .hold ∧ ∃ l tag, c = .hold l tag) ∨
        (s.mode = .hold ∧ t.mode = .service ∧ ∃ l tag, c = .enterService l tag) ∨
        ((s.mode = .service ∨ s.mode = .configFault) ∧ t.mode = .hold ∧ ∃ l tag, c = .leaveService l tag) ∨
        (s.mode = .service ∧ t.mode = .hold ∧ c = .passCompletion)))

/-! ### Tables and the settings store -/

/-- WRITE_TABLE, once its checks have passed, replaces one record of the working set whole, is answered OK and does nothing else. -/
def Obligations.WriteTableReplacesOneRecord : Prop :=
  ∀ (s : State) (l tag i : Nat) (raw : RawRecord), (Instr.writeTable l tag raw i).wf = true →
    s.admits l (.writeTable raw i) →
    ∃ r t, typedRecord raw = some r ∧ exec (.writeTable l tag raw i) s = .next t ∧
      t = { s with working := s.working.write r i, links := t.links } ∧ s.answers t l 0x92 tag (.status .ok) ∧
      (match r with
        | .cascade x => t.working.cascade = x
        | .dam x => t.working.dam i = x ∧ ∀ j, j ≠ i → t.working.dam j = s.working.dam j
        | .pool x => t.working.pool i = x ∧ ∀ j, j ≠ i → t.working.pool j = s.working.pool j
        | .reach x => t.working.reach i = x ∧ ∀ j, j ≠ i → t.working.reach j = s.working.reach j
        | .channel x => t.working.channel i = x ∧ ∀ j, j ≠ i → t.working.channel j = s.working.channel j
        | .link x => t.working.link i = x ∧ ∀ j, j ≠ i → t.working.link j = s.working.link j
        | .precedence x => t.working.precedence = x
        | .pass x => t.working.pass = x)

/-- STORE_SETTINGS begins a write of the active set from IDLE, leaving the image's checksum field invalidated, and is refused BUSY
while one is in flight.
The steps of a settings write: the snapshot replaces the image, then its checksum, the CRC-32 of the image (log entry 8), makes it
valid and the result DONE. A step out of its turn has no effect (log entry 10).
A failure of the settings store at any step ends the write with result FAILED, leaves the image as it is without a valid checksum,
and offers STORE_FAILED with subject 0 to the fault capture; with no write in flight it has no effect (log entry 10). -/
def Obligations.SettingsStore : Prop :=
  (∀ (s : State) (l tag : Nat), isRequest l tag = true → s.admits l .storeSettings →
    ∃ t, exec (.storeSettings l tag) s = .next t ∧
      if s.store.writing.isSome then s.onlyAnswers t l 0x93 tag (.status .busy)
      else t = { s with
          store := { s.store with writing := some (.invalidating, s.active), checksum := none }, links := t.links } ∧
        s.answers t l 0x93 tag (.status .ok)) ∧
  (∀ (s : State) (set : TableSet),
    (s.store.writing = some (.invalidating, set) →
      exec .storeStepDone s = .next { s with store := { s.store with writing := some (.writingImage, set) } }) ∧
    (s.store.writing = some (.writingImage, set) →
      exec .storeStepDone s =
        .next { s with store := { s.store with writing := some (.writingChecksum, set), image := set } }) ∧
    ((s.store.writing = none ∨ s.store.writing = some (.writingChecksum, set)) → exec .storeStepDone s = .next s) ∧
    (s.store.writing = some (.writingChecksum, set) →
      exec .storeComplete s =
        .next { s with store := { s.store with
          writing := none, checksum := some s.store.image.checksum, result := .done } }) ∧
    ((s.store.writing = none ∨ s.store.writing = some (.invalidating, set) ∨
        s.store.writing = some (.writingImage, set)) → exec .storeComplete s = .next s)) ∧
  (∀ s : State, s.storeOk →
    (s.store.writing = none → exec .storeFailure s = .next s) ∧
    (s.store.writing.isSome = true → ∃ t, exec .storeFailure s = .next t ∧
      t = { s with store := { s.store with writing := none, result := .failed }, capture := t.capture } ∧
      t.store.checksum = none ∧ t.store.image = s.store.image ∧
      (match s.capture with
        | none => t.capture = some
            { kind := .storeFailed, subject := 0, time := s.clock, setpoint := none, measured := none, later := 0 }
        | some f => t.capture = some { f with later := if f.later < 255 then f.later + 1 else 255 })))

/-! ### Gauges -/

/-- A reading that passes the window and the jump check is accepted: the gauge is GOOD on it with its timer restarted, and for a
pool the measured storage becomes the storage basis, a return from LOST recording the reckoning error, formed against the assumed
storage where the pool has no storage basis (log entry 20).
A deferred pass is examined again at a pool's reading: where that leaves a configured pool in AWAIT the pass and every other pool stand,
and where it leaves none the pass becomes RUNNING at the present second and takes every basis, its again flag and its timer standing. The
tailwater's reading examines no pass. No condition latches but the kinds of targets and outflow that changed levels give.
A pool whose measured storage is out of band has its band flag set on every link in its scope, one in band sets none; where the
reading starts a deferred pass, its reckoned pools do the same. Where a head changes, the flows of that dam are formed again, each
change giving an outflow report, and its targets recomputed (in a bring-up after CLEAR_FAULT too: log entry 31); where none does
and no pass starts, the dam is left alone. -/
def Obligations.ReadingAccepted : Prop :=
  ∀ (s : State) (g level : Nat), isGauge g = true → fits2 level = true → s.mode.running = true →
    s.gaugeConfigured g = true → s.inWindow g level = true → s.linksOk →
    ((s.gauge g).accepted = none ∨ (∃ a, (s.gauge g).accepted = some a ∧ absDiff level a ≤ s.jumpLimit g) ∨
      ∃ a, (s.gauge g).candidate = some a ∧ absDiff level a ≤ s.jumpLimit g) →
    ∃ t, exec (.gaugeReading g level true) s = .next t ∧
      t.gauge g =
        { state := .good, accepted := some level, candidate := none, timer := some (s.clock + s.gaugeTimeout g) } ∧
      (∀ h, h ≠ g → t.gauge h = s.gauge h) ∧
      (let r := s.active.pool g
       let measured := r.storageAt level
       let assumed := r.storageAt (r.floor + (r.ceiling - r.floor) / 2)
       let rebased := { s.poolAt g with
         basis := some measured
         reckoning := if (s.gauge g).state = .lost then (measured : Int) - ((s.poolAt g).basis.getD assumed : Nat)
           else (s.poolAt g).reckoning }
       (g = 7 → t.pass = s.pass ∧ t.pools = s.pools) ∧
       (g ≠ 7 → (s.pass.state ≠ .deferred ∨ ∃ k ∈ s.active.damNumbers, (t.gauge k).state = .await) →
         t.pass = s.pass ∧ t.poolAt g = rebased ∧ ∀ k, k ≠ g → t.poolAt k = s.poolAt k) ∧
       (g ≠ 7 → s.pass.state = .deferred → (∀ k ∈ s.active.damNumbers, (t.gauge k).state ≠ .await) →
         State.basesTaken { s.setPool g rebased with gauges := t.gauges } t ∧
         t.pass.again = s.pass.again ∧ t.pass.timer = s.pass.timer ∧
         (t.poolAt g).basis = some measured ∧ (t.poolAt g).reckoning = rebased.reckoning)) ∧
      (∀ c, (s.chan c).undisturbed (t.chan c)) ∧ s.linksOnlyLatch t ∧
      (s.latchesExactly t flowKinds fun _ _ => False) ∧
      (let started := s.pass.state = .deferred ∧ t.pass.state = .running
       s.bandsSet t (fun k => k = g ∨ (started ∧ s.active.hasDam k = true ∧ (t.gauge k).state = .lost)) ∧
       (s.setOk → s.headsFollowed t ∧ (¬ started → s.levelNoticed s t))) ∧
      t = { s with
        gauges := t.gauges, pools := t.pools, pass := t.pass, dams := t.dams, reaches := t.reaches
        channels := t.channels, links := t.links }

/-- A reading that fails the jump check becomes the candidate and changes nothing else.
A reading is discarded, and changes nothing, in LOADING and CONFIG_FAULT, on the line of a gauge that is not configured, with a bad
quality flag, or outside a pool's acceptance window. -/
def Obligations.ReadingNotAccepted : Prop :=
  (∀ (s : State) (g level a : Nat), isGauge g = true → fits2 level = true → s.mode.running = true →
    s.gaugeConfigured g = true → s.inWindow g level = true →
    (s.gauge g).accepted = some a → s.jumpLimit g < absDiff level a →
    (∀ b, (s.gauge g).candidate = some b → s.jumpLimit g < absDiff level b) →
    ∃ t, exec (.gaugeReading g level true) s = .next t ∧ t = { s with gauges := t.gauges } ∧
      t.gauge g = { s.gauge g with candidate := some level } ∧ ∀ h, h ≠ g → t.gauge h = s.gauge h) ∧
  (∀ (s : State) (g level : Nat) (good : Bool), isGauge g = true → fits2 level = true →
    (s.mode = .loading ∨ s.mode = .configFault ∨ (g ≠ 7 ∧ s.active.hasDam g = false) ∨
      (g = 7 ∧ s.active.cascade.tailPresent = false) ∨ good = false ∨
      (g ≠ 7 ∧ (level + 200 < (get0 (s.active.pool g).points 0).1 ∨
        (get0 (s.active.pool g).points 8).1 + 200 < level))) →
    exec (.gaugeReading g level good) s = .next s)

/-- The expiry of a running reading timer puts its gauge in LOST with the timer stopped, latches GAUGE_LOST in the scope of its
dam and offers the fault to the capture; before the expiry the command has no effect (log entry 10). No other kind latches but those of
targets and outflow that changed levels give.
A deferred pass is examined again at a pool's loss: where that leaves a configured pool in AWAIT the pass and every pool stand, and where
it leaves none the pass becomes RUNNING at the present second and takes every basis, its again flag and its timer standing. The
tailwater's loss examines no pass.
A band flag is set for no pool but one that a deferred pass, started by the loss, reckons out of band. Where a head changes (the
level is now taken from the storage basis; that this gives a level notice at the loss is log entry 12), the flows of that dam are
formed again, each change giving an outflow report, and its targets recomputed (in a bring-up after CLEAR_FAULT too: log entry
31); where none does and no pass starts, the dam is left alone. -/
def Obligations.GaugeTimeout : Prop :=
  ∀ (s : State) (g : Nat), isGauge g = true →
    (s.due (s.gauge g).timer = false → exec (.gaugeTimerExpiry g) s = .next s) ∧
    (s.due (s.gauge g).timer = true → s.linksOk → ∃ t, exec (.gaugeTimerExpiry g) s = .next t ∧
      t.gauge g = { s.gauge g with state := .lost, timer := none } ∧ (∀ h, h ≠ g → t.gauge h = s.gauge h) ∧
      s.linksOnlyLatch t ∧
      (s.latchesExactly t flowKinds fun c l => c = .gaugeLost ∧ s.inScope (if g = 7 then s.damCount else g) l) ∧
      (match s.capture with
        | none => t.capture = some
            { kind := .gaugeLost, subject := g, time := s.clock, setpoint := none, measured := none, later := 0 }
        | some f => t.capture = some { f with later := if f.later < 255 then f.later + 1 else 255 }) ∧
      ((g = 7 ∨ s.pass.state ≠ .deferred ∨ ∃ k ∈ s.active.damNumbers, (t.gauge k).state = .await) →
        t.pass = s.pass ∧ t.pools = s.pools) ∧
      (g ≠ 7 → s.pass.state = .deferred → (∀ k ∈ s.active.damNumbers, (t.gauge k).state ≠ .await) →
        State.basesTaken { s with gauges := t.gauges } t ∧ t.pass.again = s.pass.again ∧ t.pass.timer = s.pass.timer) ∧
      (∀ c, (s.chan c).undisturbed (t.chan c)) ∧
      (let started := s.pass.state = .deferred ∧ t.pass.state = .running
       s.bandsSet t (fun k => started ∧ s.active.hasDam k = true ∧ (t.gauge k).state = .lost) ∧
       (s.setOk → s.headsFollowed t ∧ (¬ started → s.levelNoticed s t))) ∧
      t = { s with
        gauges := t.gauges, capture := t.capture, pools := t.pools, pass := t.pass, dams := t.dams
        reaches := t.reaches, channels := t.channels, links := t.links })

/-! ### Passes -/

/-- The expiry of the pass timer starts a pass from IDLE, its timer restarted: RUNNING when no configured pool's gauge is in
AWAIT, and then every pool's basis, every accumulator and every seeded reach is taken at the present second; DEFERRED otherwise,
with no bases taken.
The basis of a pool that is not LOST is the one it holds; that of a LOST pool is reckoned from the previous pass basis by the
water that came and went since, within its table's storages; a pool with no basis, or no previous pass basis, takes the assumed
storage. The reading leaves each seeded reach with nothing arrived and its cut at the present second, and an unseeded one alone;
where a reckoned level gives a level notice its channels may then push a step.
With a pass in flight the expiry sets the again flag and the timer stays stopped; before the expiry it has no effect (log entry
10).
A LOST pool whose reckoned basis is out of band has its band flag set on every link in its scope; no other flag is. Each reckoned
level is a level notice: where a head changes, the flows of that dam are formed again, each change giving an outflow report after
the bases are read, and its targets recomputed (in a bring-up after CLEAR_FAULT too: log entry 31). No condition latches but the kinds
of those targets and that outflow. -/
def Obligations.PassTimerExpiry : Prop :=
  ∀ s : State,
    (s.due s.pass.timer = false → exec .passTimerExpiry s = .next s) ∧
    (s.due s.pass.timer = true → s.inFlight = true →
      exec .passTimerExpiry s = .next { s with pass := { s.pass with again := true, timer := none } }) ∧
    (s.due s.pass.timer = true → s.inFlight = false → s.poolAwaits →
      exec .passTimerExpiry s = .next { s with pass := { s.pass with
        state := .deferred, timer := some (s.clock + s.active.pass.period) } }) ∧
    (s.due s.pass.timer = true → s.inFlight = false → ¬ s.poolAwaits → s.active.cascade.damCount ≤ 6 → s.linksOk →
      ∃ t, exec .passTimerExpiry s = .next t ∧
      s.basesTaken t ∧ t.pass.again = s.pass.again ∧ t.pass.timer = some (s.clock + s.active.pass.period) ∧
      ((∀ k, s.active.hasDam k = true → (s.gauge k).state ≠ .lost) →
        t.channels = s.channels ∧ t.links = s.links ∧ (∀ k, (t.damAt k).outflow = (s.damAt k).outflow) ∧
        ∀ k, s.active.hasReach k = true → (s.reachAt k).queue ≠ [] →
          t.reachAt k = { s.reachAt k with arrived := 0, cut := s.clock }) ∧
      (∀ c, (s.chan c).undisturbed (t.chan c)) ∧ s.linksOnlyLatch t ∧
      (s.latchesExactly t flowKinds fun _ _ => False) ∧
      s.bandsSet t (fun k => s.active.hasDam k = true ∧ (s.gauge k).state = .lost) ∧
      (s.setOk → s.levelNoticed { s with
        pass := t.pass
        dams := gen1 fun k => if s.active.hasDam k = true then { s.damAt k with volume := 0, mark := s.clock } else s.damAt k
        reaches := gen1 fun k =>
          if s.active.hasReach k = true ∧ (s.reachAt k).queue ≠ [] then { s.reachAt k with arrived := 0, cut := s.clock }
          else s.reachAt k } t) ∧
      t = { s with
        pass := t.pass, pools := t.pools, dams := t.dams, reaches := t.reaches, channels := t.channels
        links := t.links })

/-- Stage 2: every seeded reach is retired to the pass start, which counts the water that arrived, drops exactly the steps whose successor
has arrived, and clears the coarsened flag where it drops some and leaves 24 or fewer; every unseeded reach is seeded with its dam's
outflow. Made out of its turn the stage has no effect (log entry 10). An outflow report sets the dam's outflow and brings its accumulator
up with the old one. It offers a step to the dam's reach: an unseeded reach takes none; a seeded one is first retired, to the start of a
RUNNING pass and else to the present second, but that no step is removed once a RUNNING pass has made its stage 2 (that one may be between
stages 1 and 2 is log entry 29), and then takes the step by the deadband, the second and the room of R39, a full queue coalescing it. A
coalescing that sets the coarsened flag latches ROUTING_COARSENED in the scope of the dam and of the pool below. That a same-second
replacement in a full queue sets no flag and latches nothing is the model's (log entry 14). -/
def Obligations.RoutingUpkeep : Prop :=
  (∀ s : State, (s.atStage .routing = false → exec .routingUpkeep s = .next s) ∧
    (s.atStage .routing = true → s.active.cascade.damCount ≤ 6 →
      ∃ t, exec .routingUpkeep s = .next t ∧
        t = { s with reaches := t.reaches, pass := { s.pass with stage := .base } } ∧
        ∀ k, (s.active.hasReach k = false → t.reachAt k = s.reachAt k) ∧
          (s.active.hasReach k = true →
            let t0 := s.pass.forecast.start
            let travel := (s.active.reach k).travel
            ((s.reachAt k).queue = [] → t.reachAt k =
              { queue := [{ flow := (s.damAt k).outflow, departure := t0 - travel }], coarsened := false
                arrived := 0, cut := t0 }) ∧
            ((s.reachAt k).queue ≠ [] → (s.reachAt k).retiredTo (t.reachAt k) travel t0)))) ∧
  (∀ (s : State) (k q : Nat), s.active.hasDam k = true → s.active.cascade.damCount ≤ 6 →
    let t := s.outflowReport k q
    let d := s.damAt k
    let r := s.active.reach k
    t.damAt k = { outflow := q, volume := d.volume + d.outflow * (s.clock - d.mark), mark := s.clock } ∧
    (∀ j, j ≠ k → t.damAt j = s.damAt j ∧ t.reachAt j = s.reachAt j) ∧
    ((s.active.hasReach k = false ∨ (s.reachAt k).queue = []) → t.reaches = s.reaches ∧ t.links = s.links) ∧
    (s.active.hasReach k = true → (s.reachAt k).queue ≠ [] →
      let cut := if s.pass.state = .running then s.pass.forecast.start else s.clock
      ∃ x : Reach,
      (if s.pass.state = .running ∧ s.pass.stage ≠ .routing then (s.reachAt k).countedTo x r.travel cut
      else (s.reachAt k).retiredTo x r.travel cut) ∧
      x.pushed (t.reachAt k) r.deadband s.clock q ∧
      (if (t.reachAt k).coarsened = true ∧ x.coarsened = false then
        s.latchedFor t .routingCoarsened k ∧ s.latchedFor t .routingCoarsened (k + 1) ∧
        (∀ l, s.inScope k l = false → s.inScope (k + 1) l = false → t.linkAt l = s.linkAt l)
      else t.links = s.links)) ∧
    (s.linksOk → s.linksOnlyLatch t) ∧
    t = { s with dams := t.dams, reaches := t.reaches, links := t.links })

/-- Stage 3: every working grant is 0, every working state PENDING (the model's choice, log entry 26: the manual names the grants
alone), what the dam plans and the channels hold is read, and the forecast is formed bin by bin from the pass basis by inflow less
outflow, with no claim in it. Made out of its turn the stage has no effect (log entry 10).
A pool's forecast, in every stage that forms it: each bin adds the routed inflow and the lateral volume and takes the planned
outflow off. The planned outflow of a dam at a second is its constant part and the working grants of its claims whose windows
cover that second. The inflow comes second by second: before the known horizon, the pass start and the travel time of the reach
above, it is the rate its queue answers; from there on it is the planned outflow of the dam above, one travel time earlier. P is
the largest planned outflow of any second of the bin. -/
def Obligations.BaseForecast : Prop :=
  (∀ s : State, (s.atStage .base = false → exec .baseForecast s = .next s) ∧
    (s.atStage .base = true → s.active.cascade.damCount ≤ 6 →
      ∃ t, exec .baseForecast s = .next t ∧
        t.claims = s.claims.map (fun c => { c with workGrant := 0, workState := .pending, workEnd := c.finish }) ∧
        t.pass.stage = .sweep ∧
        (∀ k, s.active.hasDam k = true →
          let w := get1 t.pass.dams k
          w = { compensation := s.compensation k, unmanaged := s.unmanaged k, forced := (s.planAt k).forced
                record := none } ∧
          t.plan k = { constant := w.forced + w.compensation + w.unmanaged, releases := [] } ∧
          (t.pass.forecast.pool k).F 1 = (s.passStorage k : Int) + t.binChange (t.plan k) k 1 ∧
          (∀ b, 1 ≤ b → b ≤ 11 → (t.pass.forecast.pool k).F (b + 1) =
            (t.pass.forecast.pool k).F b + t.binChange (t.plan k) k (b + 1)) ∧
          (∀ b, 1 ≤ b → b ≤ 12 → (t.pass.forecast.pool k).P b = (w.forced + w.compensation + w.unmanaged : Nat)) ∧
          t.pass.forecast.pool k = t.formPool (t.plan k) k) ∧
        t = { s with claims := t.claims, pass := { s.pass with
          stage := .sweep, dams := t.pass.dams, forecast := { s.pass.forecast with pools := t.pass.forecast.pools } } })) ∧
  (∀ (s : State) (k b : Nat), 1 ≤ k → k ≤ 6 → 1 ≤ b → b ≤ 12 →
    let f := s.pass.forecast
    let x := f.start + (b - 1) * f.bin
    let y := f.start + b * f.bin
    let planned := fun (j t : Nat) =>
      let w := get1 s.pass.dams j
      w.forced + w.compensation + w.unmanaged + sumOver (s.claims.filter fun c =>
        c.dam = j ∧ c.start ≤ t ∧ t < c.workEnd.getD (f.start + 12 * f.bin)) (·.workGrant)
    let total := fun (a e : Nat) (rate : Nat → Nat) => ((List.range (e - a)).map fun i => rate (a + i)).sum
    let travel := (s.active.reach (k - 1)).travel
    let known := f.start + travel
    let inflow := if k = 1 then 0
      else arrivals travel (s.reachAt (k - 1)).queue x (min y known) +
        total (max x known) y fun t => planned (k - 1) (t - travel)
    let lateral := get1 (get1 s.pass.rates k) b * f.bin
    let p := s.formPool (s.plan k) k
    let before : Int := if b = 1 then s.passStorage k else p.F (b - 1)
    p.F b = before + inflow + lateral - total x y (planned k) ∧
    (∀ i < f.bin, (planned k (x + i) : Int) ≤ p.P b) ∧
    (0 < f.bin → ∃ i < f.bin, p.P b = planned k (x + i)))

/-- Stage 4 outside COORDINATE gives every claim working grant 0 with working state PENDING and does nothing else; in COORDINATE it takes
the claims in rank order, gives each claim on an unavailable unit working state SUSPENDED with grant 0 and each other one the working
state and grant of its admission, passes over the withdrawn and the ended on available units, and writes nothing of a claim but its
working values. The admission is that of the pass start, on the working forecast that holds the grant of every claim taken before, beside
their working grants and the dam's working forced spill. Each grant so made is added to the working forecast over the claim's exposure:
its storages change as for any release, and the peaks of its dam are the largest planned outflow of their bins formed anew. The ones
passed over stay with working grant 0 as stage 3 has left them, in working state PENDING (the model's choice, log entry 26); that every
claim stands so before the sweep is taken as premise, and every step keeps it. Made out of its turn the stage has no effect (log entry
10). -/
def Obligations.Sweep : Prop :=
  ∀ s : State, (s.atStage .sweep = false → exec .sweep s = .next s) ∧
    (s.atStage .sweep = true →
      (s.mode ≠ .coordinate → exec .sweep s = .next { s with
        claims := s.claims.map fun c => { c with workGrant := 0, workState := .pending }
        pass := { s.pass with stage := .forcing } }) ∧
      (s.mode = .coordinate → s.claimsOk → ∃ t, exec .sweep s = .next t ∧
        t = { (ranked s.active.precedence s.claims).foldl State.sweepClaim s with
          pass := { ((ranked s.active.precedence s.claims).foldl State.sweepClaim s).pass with stage := .forcing } } ∧
        t = { s with claims := t.claims, pass := { s.pass with
          stage := .forcing, forecast := { s.pass.forecast with pools := t.pass.forecast.pools } } } ∧
        t.claims.map (fun c => { c with workGrant := 0, workState := .pending, workEnd := none }) =
          s.claims.map (fun c => { c with workGrant := 0, workState := .pending, workEnd := none }) ∧
        (let order := ranked s.active.precedence s.claims
         let t0 := s.pass.forecast.start
         ∃ held : Nat → Forecast, held 0 = s.pass.forecast ∧ held order.length = t.pass.forecast ∧
         ∀ i c d, order[i]? = some c → d ∈ t.claims → d.handle = c.handle →
           if c.passedOver t0 = true ∧ s.unitUnavailable c = false then held (i + 1) = held i
           else
             let f := held i
             let k := c.dam
             let w := get1 s.pass.dams k
             let planned := fun (x : Nat) => w.forced + w.compensation + w.unmanaged +
               sumOver ((s.sweptTable t (order.take (i + 1))).filter fun e =>
                 e.dam = k ∧ e.start ≤ x ∧ x < e.workEnd.getD (f.start + 12 * f.bin)) (·.workGrant)
             (d.workState, d.workGrant) = State.admitClaim { s with claims := s.sweptTable t (order.take i) }
               c f t0 (·.workGrant) w.forced ∧
             (held (i + 1)).start = f.start ∧ (held (i + 1)).bin = f.bin ∧
             ∀ j ∈ sixNumbers, ∀ b ∈ binNumbers,
               ((held (i + 1)).pool j).F b = (f.pool j).F b + releaseOnF f s.damCount (s.active.reach k).travel k
                 d.workGrant (max c.start t0) (c.finish.getD (f.start + 12 * f.bin)) j b ∧
               (if j = k ∧ d.workGrant ≠ 0 then
                 (∀ y < f.bin, (planned (f.start + (b - 1) * f.bin + y) : Int) ≤ ((held (i + 1)).pool j).P b) ∧
                 (0 < f.bin → ∃ y < f.bin, ((held (i + 1)).pool j).P b = planned (f.start + (b - 1) * f.bin + y))
               else ((held (i + 1)).pool j).P b = (f.pool j).P b)) ∧
        ∀ c ∈ s.claims, ∀ d ∈ t.claims, d.handle = c.handle →
          (c.passedOver s.pass.forecast.start = true → s.unitUnavailable c = false →
            d = c ∧ (s.sweepReady → d.workGrant = 0 ∧ d.workState = .pending)) ∧
          ((c.passedOver s.pass.forecast.start = false ∨ s.unitUnavailable c = true) →
            grantFits d d.workState d.workGrant ∧ (d.workState = .suspended ↔ s.unitUnavailable c = true) ∧
            d.workEnd = c.finish)))

/-- Rank: by the group order of the precedence setting, then by the order of the ENERGY subgroups, then by the higher urgency; a
lower number ranks higher. The sweep's order is a rearrangement of the table, never rising in that number, and claims of one rank
keep their list order. -/
def Obligations.RankOrder : Prop :=
  ∀ (p : PrecedenceRec) (l : List Claim),
    let before := fun (a b : ClaimGroup) =>
      (p.floodFirst = true ∧ a = .flood ∧ b ≠ .flood) ∨ (p.floodFirst = false ∧ a ≠ .flood ∧ b = .flood) ∨
      (p.dispatchFirst = true ∧ a = .dispatch ∧ b = .station) ∨
      (p.dispatchFirst = false ∧ a = .station ∧ b = .dispatch)
    (∀ c d : Claim, c.urgency ≤ 3 → d.urgency ≤ 3 →
      (p.rank c < p.rank d ↔ before c.group d.group ∨ (c.group = d.group ∧ d.urgency < c.urgency))) ∧
    (ranked p l).Perm l ∧ (ranked p l).Pairwise (fun c d => p.rank c ≤ p.rank d) ∧
    ∀ n, (ranked p l).filter (fun c => p.rank c == n) = l.filter fun c => p.rank c == n

/-- The admission of one claim. Its admissible flow is the smallest of its request and of the bounds (A) to (D), which is the
greatest flow that is within the request and the flow the gates leave, and that, where it is positive, keeps its own pool over the
floor limit, the pool below under the limit of the claim's group, and the last dam's peak within the river limit, in every bin it is
exposed in. The claim is GRANTED where that flow is its request, CLAMPED where it is at least its minimum, and PENDING with nothing
otherwise; on an unavailable unit it is SUSPENDED with nothing. The exposures are those of R83, read as log entry 4 says. -/
def Obligations.AdmissionRespectsEveryBound : Prop :=
  ∀ (s : State) (c : Claim) (f : Forecast) (tau forced : Nat) (grantOf : Claim → Nat),
    let r := s.admitClaim c f tau grantOf forced
    let k := c.dam
    let travel := (s.active.reach k).travel
    let t := fun (b : Nat) => f.start + b * f.bin
    let last := min (c.finish.getD (t 12)) (t 12)
    let leaving := fun (b : Nat) => min last (t b) - max c.start tau
    let reaching := fun (b : Nat) =>
      if t 12 ≤ max c.start tau + travel then 0 else min (last + travel) (t b) - max (c.start + travel) tau
    let others := s.claims.filter fun d => d.handle ≠ c.handle
    let gates := match c.kind with
      | .turbine u =>
        (s.active.channel u).capacity (s.chanHead u) - sumOver (others.filter fun d => d.kind = .turbine u) grantOf
      | .spill =>
        sumOver ((s.active.damChannels k).filter fun u =>
            (s.active.channel u).kind = .spill ∧ (s.chan u).inService = true ∧ (s.chan u).source = .allocation)
          (fun u => (s.active.channel u).capacity (s.chanHead u)) -
        sumOver (others.filter fun d => d.kind = .spill ∧ d.dam = k) grantOf - forced -
        sumOver (s.planAt k).entries (·.flow)
    let allowed := fun (a : Nat) => a ≤ c.requested ∧ a ≤ gates ∧ ∀ b ∈ binNumbers, 0 < a →
      (0 < leaving b →
        ((a * leaving b : Nat) : Int) ≤ (f.pool k).F b - s.floorLimit k ∧
        (k = s.damCount → (f.pool k).P b + a ≤ ((s.active.dam k).qBelow : Int))) ∧
      (k < s.damCount → 0 < reaching b → ((a * reaching b : Nat) : Int) ≤
        (if c.group = .flood then s.floodLimit (k + 1) else s.ceilingLimit (k + 1)) - (f.pool (k + 1)).F b)
    (s.unitUnavailable c = true → r = (.suspended, 0)) ∧
    (s.unitUnavailable c = false → ∃ a ≤ c.requested, allowed a ∧ (∀ m ≤ c.requested, allowed m → m ≤ a) ∧
      r = (if a = c.requested then (.granted, a) else if c.minimum ≤ a then (.clamped, a) else (.pending, 0))) ∧
    (1 ≤ c.minimum → c.minimum ≤ c.requested → grantFits c r.1 r.2)

/-- The forcing of one dam: the requirement limited by the cap raises the forced spill at once; below it, the present value holds,
within the cap, until the pool's basis is under its ceiling limit. The value is never over the cap, the record says what was found,
and a requirement over the cap, it alone, latches OVERTOP_RISK, in the scope of the dam and no further. -/
def Obligations.ForcingOfOneDam : Prop :=
  ∀ (s : State) (k : Nat), 1 ≤ k → k ≤ 6 →
    let t := s.forceDam k
    let need := s.requirement k
    let cap := min 60000 (sumOver (s.spillChannels k) s.capacity -
      sumOver (s.claims.filter fun c => c.spillAt k) (·.workGrant) - s.compensation k)
    let present := (get1 s.pass.dams k).forced
    let w := get1 t.pass.dams k
    w.forced ≤ cap ∧
    (present ≤ min need cap → w.forced = min need cap) ∧
    (min need cap < present → (s.passStorage k : Int) < s.ceilingLimit k → w.forced = min need cap) ∧
    (min need cap < present → s.ceilingLimit k ≤ (s.passStorage k : Int) → w.forced = min present cap) ∧
    (∃ r, w.record = some r ∧ r.requirement = need ∧ r.cap = cap ∧ (r.capBit = true ↔ cap < need) ∧
      (r.held = true ↔ min need cap < present ∧ s.ceilingLimit k ≤ (s.passStorage k : Int))) ∧
    (s.latchesExactly t [] fun c l => c = .overtopRisk ∧ cap < need ∧ s.inScope k l) ∧
    (s.linksOk → s.linksOnlyLatch t) ∧ (need ≤ cap → t.links = s.links) ∧
    t.pass.forecast.pool k = t.formPool (t.plan k) k ∧
    (s.active.hasReach k = true → k < 6 → t.pass.forecast.pool (k + 1) = t.formPool (t.plan (k + 1)) (k + 1)) ∧
    w.compensation = (get1 s.pass.dams k).compensation ∧ w.unmanaged = (get1 s.pass.dams k).unmanaged ∧
    (∀ j, j ≠ k → get1 t.pass.dams j = get1 s.pass.dams j) ∧
    t = { s with links := t.links, pass := { s.pass with
      dams := t.pass.dams, forecast := { s.pass.forecast with pools := t.pass.forecast.pools } } }

/-- The requirement of R100: with it as forced spill from the pass start, no bin's storage, less what it spills by that bin's end,
is above the flood limit, and no smaller flow does that. -/
def Obligations.RequirementIsTheLeast : Prop :=
  ∀ (s : State) (k q : Nat), 0 < s.pass.forecast.bin →
    (s.requirement k ≤ q ↔ ∀ b ∈ binNumbers,
      (s.storages (s.planOf k 0) k).getD (b - 1) 0 - (q * (b * s.pass.forecast.bin) : Nat) ≤ s.floodLimit k)

/-- Stage 5 forces the dams in order from the top, then latches DOWNSTREAM_LIMIT_EXCEEDED when the last dam's peak passes its river
limit; it writes the working values of the pass and nothing else. Beside that kind, in the last dam's scope, only OVERTOP_RISK latches,
in the scope of each dam whose record says that its requirement is over its cap.
Made out of its turn the stage has no effect (log entry 10). -/
def Obligations.Forcing : Prop :=
  ∀ s : State, (s.atStage .forcing = false → exec .forcing s = .next s) ∧
    (s.atStage .forcing = true → s.active.cascade.damCount ≤ 6 → s.linksOk →
      ∃ t, exec .forcing s = .next t ∧
        (let u := s.active.damNumbers.foldl State.forceDam s
         t.pass = { u.pass with stage := .publish } ∧
         (s.latchesExactly t [] fun c l =>
           (c = .overtopRisk ∧ ∃ k ∈ sixNumbers, s.active.hasDam k = true ∧
             (∃ r, (get1 t.pass.dams k).record = some r ∧ r.capBit = true) ∧ s.inScope k l) ∨
           (c = .downstreamLimitExceeded ∧ u.riverExceeded = true ∧ s.inScope s.damCount l)) ∧
         (u.riverExceeded = false → t.links = u.links)) ∧
        (∀ k, s.active.hasDam k = true → (get1 t.pass.dams k).forced ≤ 60000 ∧ (get1 t.pass.dams k).record.isSome = true) ∧
        s.linksOnlyLatch t ∧
        t = { s with links := t.links, pass := { s.pass with
          stage := .publish, dams := t.pass.dams
          forecast := { s.pass.forecast with pools := t.pass.forecast.pools } } })

/-- Stage 6. The rates in force and the dam plans are published, and the forecast: that of the pass, corrected from the present
second for each claim the sweep gave a grant whose unit is unavailable or which was withdrawn (removed to the end the sweep used) or
whose end has changed (removed to that end, added to the present one; an end changed back stands unchanged, log entry 35), and for
each dam by the change of its compensation sum since stage 3. Every claim on an unavailable unit is SUSPENDED and every other takes
its working state and grant; the withdrawn and the ended leave the table. A compensation entry stays while its unit is not available,
lowered to the held grants left on the unit where a claim on it leaves, and goes when they are 0. GRANT_REDUCED latches for the owners of
the claims that lost flow, CLAIM_ENDED for those of the claims removed whose end the manual has latched (log entry 27),
FORCED_SPILL_STARTED in the scope of each dam whose forced spill goes from 0 to positive, and nothing latches for any other link, dam or
kind.
Made out of its turn the stage has no effect (log entry 10). -/
def Obligations.Publish : Prop :=
  ∀ s : State, (s.atStage .publish = false → exec .publish s = .next s) ∧
    (s.atStage .publish = true → s.active.cascade.damCount ≤ 6 → s.linksOk → s.claimsOk → s.plansOk →
      ∃ t, exec .publish s = .next t ∧
        t.pass = { s.pass with stage := .completion } ∧
        (let p := s.pass.forecast
         let n := s.damCount
         let gone := fun (c : Claim) => s.unitUnavailable c = true ∨ c.withdrawn ≠ .clear
         let sweptEnd := fun (c : Claim) => c.workEnd.getD (p.start + 12 * p.bin)
         let newEnd := fun (c : Claim) => c.finish.getD (p.start + 12 * p.bin)
         let first := fun (c : Claim) => max c.start s.clock
         let travel := fun (k : Nat) => (s.active.reach k).travel
         let change := fun (k : Nat) =>
          if s.active.hasDam k = true then
            (sumOver (t.planAt k).entries (·.flow) : Int) - (get1 s.pass.dams k).compensation
          else 0
         ∃ f, t.forecast = some f ∧ p.changedBy f
          (fun j b =>
            (sumClaims s.claims fun c =>
              if gone c ∨ c.finish ≠ c.workEnd then
                -releaseOnF p n (travel c.dam) c.dam c.workGrant (first c) (sweptEnd c) j b +
                  (if gone c then 0
                  else releaseOnF p n (travel c.dam) c.dam c.workGrant (first c) (newEnd c) j b)
              else 0) +
            sumDams fun k => constantOnF p n (travel k) k (change k) s.clock j b)
          (fun j b =>
            (sumClaims s.claims fun c =>
              if gone c ∨ c.finish ≠ c.workEnd then
                removalOnP p c.dam c.workGrant (first c) (sweptEnd c) j b +
                  (if gone c then 0 else releaseOnP p c.dam c.workGrant (first c) (newEnd c) j b)
              else 0) +
            sumDams fun k => constantOnP p k (change k) s.clock j b)) ∧
        (∀ k, s.active.hasDam k = true → t.poolAt k = { s.poolAt k with rates := get1 s.pass.rates k }) ∧
        (∀ k, s.active.hasDam k = false → t.poolAt k = s.poolAt k ∧ t.planAt k = s.planAt k) ∧
        t.claims = ((s.claims.filter fun c => c.withdrawn = .clear ∧ c.endedAt s.clock = false).map fun c =>
          if s.unitUnavailable c = true then
            { c with
              state := .suspended, grant := 0, held := if c.state = .suspended then c.held else some c.grant }
          else
            { c with
              state := c.workState, grant := c.workGrant
              held := if c.workState = .suspended then (if c.state = .suspended then c.held else some c.grant)
                else none }) ∧
        (∀ k, s.active.hasDam k = true →
          (t.planAt k).forced = (get1 s.pass.dams k).forced ∧ (t.planAt k).record = (get1 s.pass.dams k).record ∧
          (t.planAt k).entries = ((s.planAt k).entries.map fun e =>
              if s.claims.any (fun c => decide (c.kind = .turbine e.unit ∧ c.dam = k ∧
                  (c.withdrawn ≠ .clear ∨ c.endedAt s.clock = true))) = true then
                { e with flow := min e.flow (t.heldSum e.unit) }
              else e).filter (fun e => 0 < e.flow ∧ (s.chan e.unit).available = false)) ∧
        (s.latchesExactly t [] fun kind l =>
          (kind = .grantReduced ∧ ∃ c ∈ s.claims, ∃ d ∈ t.claims, d.handle = c.handle ∧ d.grant < c.grant ∧ c.owner = l) ∨
          (kind = .claimEnded ∧ ∃ c ∈ s.claims, c.owner = l ∧
            (c.withdrawn = .byService ∨
              (c.withdrawn = .clear ∧ c.endedAt s.clock = true ∧ c.deadline.isSome = true))) ∨
          (kind = .forcedSpillStarted ∧ ∃ k ∈ sixNumbers, s.active.hasDam k = true ∧ (s.planAt k).forced = 0 ∧
            (t.planAt k).forced ≠ 0 ∧ s.inScope k l)) ∧
        s.linksOnlyLatch t ∧
        t = { s with
          pass := t.pass, forecast := t.forecast, pools := t.pools, claims := t.claims, plans := t.plans
          links := t.links })

/-- Stage 7: the targets of every dam are recomputed; the queued RELEASEs are drained in arrival order, each checked again; the waiting
LEAVE_SERVICEs are made in turn; then the again flag starts a new pass, DEFERRED exactly where a configured pool is in AWAIT and otherwise
RUNNING with every basis taken, or the pass is IDLE. With nothing waiting the claim table, the plans and the forecast stand, and no
condition latches but the kinds of targets and outflow. Made out of its turn the stage has no effect (log entry 10). A queued RELEASE
whose link has changed its class or its STATION dam is answered NOT_PERMITTED, one whose dam or unit is gone BAD_INDEX, one that finds the
table full TABLE_FULL; any other enters the lowest free slot with its arrival's start, and an abandon deadline where its link is down and
it gave no duration. Outside COORDINATE it waits PENDING, or SUSPENDED on an unavailable unit; in COORDINATE it is evaluated as an
arrival. One that enters SUSPENDED holds the held grant 0, and any other none; its working values are 0, PENDING and no end (the model's
choice, log entry 18). A claim whose end has passed by then has that end marked as taken (log entry 19). Its reply carries the state and
grant it takes. A waiting LEAVE_SERVICE is answered WRONG_MODE when the mode is no longer SERVICE, BAD_TABLE when the working set no
longer passes, and else the set becomes active, an early pass is asked for and the reply is OK. A reply so given goes to the first request
of its kind that has none on its link; as the first of the buffer it begins at once on an idle transmitter (log entry 6) or waits for it;
on a link with no such request nothing happens. An arrival's positive grant is added to the published forecast over the claim's window,
and its dam's targets follow it. An activation realigns the claims, the dam plans, the gauges, the published forecast and the band flags,
and reroutes the pools, the accumulators and the reaches; a channel that stays keeps setpoint, measured position and command, its flow
formed again (after CLEAR_FAULT too: log entry 31), and one placed OFFLINE loses them (its target flow and shortfall mark too: log entry
30) and is brought up. That a unit it finds TRIPPED has target flow 0 and no shortfall mark is log entry 13. MODE_CHANGED latches on every
link, CLAIM_ENDED for the owners of the claims it removes, UNIT_TRIP in the scope of the units it brings up to a trip, and nothing else
but the kinds of targets and outflow. The new travel times in the forecast's changes, and a pool left alone where its record stands, are
log entry 23. -/
def Obligations.PassCompletion : Prop :=
  (∀ s : State, (s.atStage .completion = false → exec .passCompletion s = .next s) ∧
    (s.atStage .completion = true →
      let u := s.active.damNumbers.foldl State.recompute s
      let v := s.intake.foldl State.drainEntry { u with intake := [] }
      let w := s.leaving.foldl State.makeWaiting { v with leaving := [] }
      ∃ t, exec .passCompletion s = .next t ∧ t.intake = [] ∧ t.leaving = [] ∧
        (w.pass.again = false → t = { w with pass := { w.pass with state := .idle } }) ∧
        (w.pass.again = true →
          State.passStarted { w with pass := { w.pass with again := false, state := .idle } } t ∧
          t = { w with
            pass := t.pass, pools := t.pools, dams := t.dams, reaches := t.reaches, channels := t.channels
            links := t.links }) ∧
        (s.leaving = [] →
          (s.pass.again = true → t.inFlight = true) ∧
          (s.intake = [] →
            (s.pass.again = false → t.pass = { s.pass with state := .idle }) ∧
            t.claims = s.claims ∧ t.plans = s.plans ∧ t.forecast = s.forecast ∧ t.generations = s.generations ∧
            (s.latchesExactly t flowKinds fun _ _ => False) ∧ (s.linksOk → s.linksOnlyLatch t)) ∧
          (∀ c, (s.chan c).undisturbed (t.chan c)) ∧
          t = { s with
            intake := [], pass := t.pass, pools := t.pools, dams := t.dams, reaches := t.reaches, claims := t.claims
            generations := t.generations, plans := t.plans, forecast := t.forecast, channels := t.channels
            links := t.links }))) ∧
  (∀ (s : State) (e : IntakeEntry),
    let t := s.drainEntry e
    let r := e.request
    let answered := fun (x : State) (body : ReplyBody) => x.answerWaiting e.link 0x82 body
    let changed := s.linkClass e.link ≠ e.cls ∨ (e.cls = .station ∧ (s.active.link e.link).dam ≠ e.dam)
    let there := s.active.hasDam r.dam = true ∧ (match r.kind with
      | .spill => true
      | .turbine u => s.active.inDam r.dam u && (s.active.channel u).kind == .turbine) = true
    (changed → t = answered s (.status .notPermitted)) ∧
    (¬ changed → ¬ there → t = answered s (.status .badIndex)) ∧
    (¬ changed → there → s.freeSlot = none → t = answered s (.status .tableFull)) ∧
    (¬ changed → there → s.claimsOk → s.inFlight = true → ∀ n, s.freeSlot = some n →
      ∃ d u, t = answered u (.claim d.state d.handle d.grant) ∧
        u.claims = s.claims ++ [{ d with reached := d.endedAt s.clock }] ∧
        d.handle = (get0 s.generations n + 1) % 1024 * 64 + n ∧ d.owner = e.link ∧ d.group = e.cls.group ∧
        d.urgency = r.urgency ∧ d.dam = r.dam ∧ d.kind = r.kind ∧ d.requested = r.requested ∧
        d.minimum = r.minimum ∧ d.start = e.arrival + r.offset ∧ d.withdrawn = .clear ∧ d.reached = false ∧
        d.held = (if d.state = .suspended then some 0 else none) ∧
        d.workGrant = 0 ∧ d.workState = .pending ∧ d.workEnd = none ∧
        (∀ x, r.duration = some x → d.finish = some (d.start + x) ∧ d.deadline = none) ∧
        (r.duration = none → (s.linkAt e.link).up = true → d.finish = none ∧ d.deadline = none) ∧
        (r.duration = none → (s.linkAt e.link).up = false →
          d.finish = some (s.clock + (s.active.link e.link).abandon) ∧ d.deadline = d.finish) ∧
        get0 u.generations n = (get0 s.generations n + 1) % 1024 ∧
        (∀ m, m ≠ n → get0 u.generations m = get0 s.generations m) ∧
        (s.mode ≠ .coordinate →
          d.grant = 0 ∧ d.state = (if s.unitUnavailable d = true then .suspended else .pending) ∧
          u = { s with claims := u.claims, generations := u.generations }) ∧
        (s.mode = .coordinate →
          (d.state, d.grant) = s.admitClaim { d with state := .pending, grant := 0, held := none }
            (s.forecast.getD {}) s.clock (·.grant) (s.planAt d.dam).forced ∧
          u.pass = (if (d.state = .clamped ∨ d.state = .pending) ∧
              (s.claims.any fun x => decide (x.grant ≠ 0 ∧
                s.active.precedence.rank d < s.active.precedence.rank x)) = true then
              { s.pass with again := true }
            else s.pass) ∧
          (d.grant = 0 → u.forecast = s.forecast ∧ u.channels = s.channels) ∧
          (s.forecast = none → u.forecast = none) ∧
          (∀ f, s.forecast = some f →
            let first := max d.start s.clock
            let last := d.finish.getD (f.start + 12 * f.bin)
            ∃ g, u.forecast = some g ∧ f.changedBy g
              (releaseOnF f s.damCount (s.active.reach d.dam).travel d.dam d.grant first last)
              (releaseOnP f d.dam d.grant first last)) ∧
          (∀ c, (s.chan c).undisturbed (u.chan c)) ∧ (d.grant ≠ 0 → u.aimed d.dam) ∧ (s.linksOk → s.linksOnlyLatch u) ∧
          (s.latchesExactly u [.spillShortfall] fun _ _ => False) ∧
          u = { s with
            claims := u.claims, generations := u.generations, forecast := u.forecast, pass := u.pass
            channels := u.channels, links := u.links }))) ∧
  (∀ (s : State) (l : Nat),
    let t := s.makeWaiting l
    (s.mode ≠ .service → t = s.answerWaiting l 0x91 (.status .wrongMode)) ∧
    (s.mode = .service → ∀ e, s.working.validate = some e → t = s.answerWaiting l 0x91 (.badTable e.1 e.2)) ∧
    (s.mode = .service → s.working.validate = none → s.linksOk → s.channelsOk → s.inFlight = true →
      ∃ u, t = u.answerWaiting l 0x91 (.status .ok) ∧ s.activated u ∧ u.pass = { s.pass with again := true } ∧
        (s.setOk → s.unitsOk → s.claimsOk → s.plansOk → s.realigned u ∧ s.rerouted u ∧ s.rechanneled u))) ∧
  (∀ (s : State) (l kind : Nat) (body : ReplyBody), isLink l = true → (s.linkAt l).ok → kind ≠ 0x8C →
    let t := s.answerWaiting l kind body
    let x := s.linkAt l
    let y := t.linkAt l
    t = { s with links := t.links } ∧ (∀ m, m ≠ l → t.linkAt m = s.linkAt m) ∧
    ((∀ e ∈ x.buffer, e.kind ≠ kind ∨ e.reply.isSome = true) → y = x) ∧
    ∀ before e after, x.buffer = before ++ e :: after → (∀ b ∈ before, b.kind ≠ kind ∨ b.reply.isSome = true) →
      e.kind = kind → e.reply = none →
      (before ≠ [] → y = { x with buffer := before ++ { e with reply := some body } :: after }) ∧
      (before = [] → x.sending.isSome = true → y = { x with
        buffer := { e with reply := some body } :: after, waiting := x.waiting ++ [.first] }) ∧
      (before = [] → x.sending = none → y = { x with
        buffer := after, sending := some (.reply kind e.tag body)
        waiting := match after with
          | b :: _ => if b.reply.isSome = true then [.first] else []
          | [] => [] }))

/-- A grant added to a forecast lowers the storages of its own pool and raises those of the pool below by the flow over the seconds
of its exposure, and raises the peak of every bin it overlaps; its removal reverses the storages, and lowers the peak only of the
bins that begin within it; an empty window changes nothing. -/
def Obligations.ForecastAdjustments : Prop :=
  ∀ (s : State) (f : Forecast) (c : Claim) (g u : Nat), s.forecast = some f → 1 ≤ c.dam → c.dam ≤ s.damCount →
    s.damCount ≤ 6 →
    let k := c.dam
    let first := max c.start u
    let last := c.finish.getD (f.start + 12 * f.bin)
    let travel := (s.active.reach k).travel
    let tb := fun (b : Nat) => f.start + b * f.bin
    let own := fun (b : Nat) => (g : Int) * max 0 (min (last : Int) (tb b) - first)
    let below := fun (b : Nat) => (g : Int) * max 0 (min ((last + travel : Nat) : Int) (tb b) - (first + travel : Nat))
    ∃ a r, s.addGrant c g u c.endIn = { s with forecast := some a } ∧
      s.removeGrant c g u c.endIn = { s with forecast := some r } ∧
      (last ≤ first → a = f ∧ r = f) ∧
      (first < last → ∀ b, 1 ≤ b → b ≤ 12 →
        (a.pool k).F b = (f.pool k).F b - own b ∧ (r.pool k).F b = (f.pool k).F b + own b ∧
        (a.pool k).P b = (f.pool k).P b + (if first < tb b ∧ tb (b - 1) < last then (g : Int) else 0) ∧
        (r.pool k).P b = (f.pool k).P b - (if first ≤ tb (b - 1) ∧ tb (b - 1) < last then (g : Int) else 0) ∧
        (k < s.damCount →
          (a.pool (k + 1)).F b = (f.pool (k + 1)).F b + below b ∧
          (r.pool (k + 1)).F b = (f.pool (k + 1)).F b - below b) ∧
        ∀ j, j ≠ k →
          (a.pool j).P b = (f.pool j).P b ∧ (r.pool j).P b = (f.pool j).P b ∧
          ((j ≠ k + 1 ∨ k = s.damCount) → (a.pool j).F b = (f.pool j).F b ∧ (r.pool j).F b = (f.pool j).F b))

/-! ### Gate channels -/

/-- A report on a channel in READY or MOVING from −20 to 1020 sets the measured position to its clamped value, restarts the feedback
timer, starts, keeps or stops the tracking timer by the deviation, and forms the actual flow; one outside that range is a
FEEDBACK_RANGE fault, which sets neither. A change of the actual flow is an outflow report of the channel's dam with the sum of its
channels' flows, and one that leaves the flow unchanged hands nothing on. No condition latches but ROUTING_COARSENED. -/
def Obligations.ReportWhileTracked : Prop :=
  ∀ (s : State) (c : Nat) (p : Int), isChannel c = true → (s.chan c).inService = true → s.linksOk →
    (-20 ≤ p → p ≤ 1020 →
      let x := s.chan c
      let r := s.active.channel c
      let m := (if p < 0 then 0 else if 1000 < p then 1000 else p).toNat
      ∃ t, exec (.positionReport c p) s = .next t ∧
        t.chan c = { x with
          measured := some m, actual := r.flow m (s.chanHead c), feedbackTimer := some (s.clock + r.feedbackTimeout)
          trackTimer := if absDiff m (x.setpoint.getD 0) ≤ r.tolerance then none
            else some (x.trackTimer.getD (s.clock + r.trackTime)) } ∧
        (∀ d, d ≠ c → t.chan d = s.chan d) ∧ s.linksOnlyLatch t ∧
        (s.latchesExactly t [.routingCoarsened] fun _ _ => False) ∧
        (x.actual = r.flow m (s.chanHead c) → t.dams = s.dams ∧ t.reaches = s.reaches ∧ t.links = s.links) ∧
        (x.actual ≠ r.flow m (s.chanHead c) → (s.active.damOf c).isSome = true →
          let k := s.damOfChannel c
          t = { s with channels := t.channels }.outflowReport k
            (sumOver (s.active.damChannels k) fun d => (t.chan d).actual)) ∧
        t = { s with channels := t.channels, dams := t.dams, reaches := t.reaches, links := t.links }) ∧
    ((p < -20 ∨ 1020 < p) → exec (.positionReport c p) s = .next (s.enterFault c .feedbackRange))

/-- A report on a channel in BRINGUP from −20 to 1020 sets the measured position, the setpoint and the target to its clamped value
and forms the actual flow, a change of it being an outflow report of the channel's dam with the sum of its channels' flows: an
automatic channel that does not wait enters READY, sends one command with that value and requests an early pass; any other, one that
waits already among them (log entry 28), waits for BRING_UP with its bring-up timer stopped. A pass that starts at once may change
heads, and the flow follows. As the automatic channel enters READY the targets of its dam are recomputed. A held channel has the position
as local opening and its flow as target flow, with no shortfall mark (that it has that flow in BRINGUP, where no recompute forms it, is
log entry 13). No condition latches but the kinds of targets and outflow. A report outside that range is discarded. -/
def Obligations.ReportInBringup : Prop :=
  ∀ (s : State) (c : Nat) (p : Int), isChannel c = true → (s.chan c).state = .bringup → s.mode.running = true →
    s.linksOk →
    ((p < -20 ∨ 1020 < p) → exec (.positionReport c p) s = .next s) ∧
    (-20 ≤ p → p ≤ 1020 →
      let x := s.chan c
      let r := s.active.channel c
      let m := (if p < 0 then 0 else if 1000 < p then 1000 else p).toNat
      ∃ t, exec (.positionReport c p) s = .next t ∧
        (t.chan c).measured = some m ∧ (t.chan c).setpoint = some m ∧ (t.chan c).bringupTimer = none ∧
        (t.chan c).holder = x.holder ∧ (x.holder.isSome → (t.chan c).localOpening = some m ∧
          (t.chan c).targetFlow = some (r.flow m (t.chanHead c)) ∧ (t.chan c).shortfall = false) ∧
        ((r.manual = true ∨ x.waitMark = true) →
          (t.chan c).state = .bringup ∧ (t.chan c).waitMark = true ∧ (t.chan c).target = some m ∧
          (t.chan c).actual = r.flow m (s.chanHead c) ∧ (t.chan c).commandCount = x.commandCount ∧
          (x.actual ≠ r.flow m (s.chanHead c) → (s.active.damOf c).isSome = true →
            let k := s.damOfChannel c
            t = { s with channels := t.channels }.outflowReport k
              (sumOver (s.active.damChannels k) fun d => (t.chan d).actual)) ∧
          (x.actual = r.flow m (s.chanHead c) → t.dams = s.dams ∧ t.reaches = s.reaches ∧ t.links = s.links) ∧
          t = { s with channels := t.channels, dams := t.dams, reaches := t.reaches, links := t.links }) ∧
        (r.manual = false → x.waitMark = false →
          (t.chan c).inService = true ∧ (t.chan c).waitMark = false ∧ (t.chan c).command = some m ∧
          (t.chan c).commandCount = x.commandCount + 1 ∧
          (t.chan c).rampTimer = some (s.clock + r.rampInterval) ∧
          (t.chan c).feedbackTimer = some (s.clock + r.feedbackTimeout) ∧
          ((t.chan c).state = .ready ↔ (t.chan c).target = some m ∨ s.active.inDam (s.damOfChannel c) c = false) ∧
          t.aimed (s.damOfChannel c) ∧
          (t.chan c).actual = r.flow m (t.chanHead c) ∧
          (let k := s.damOfChannel c
           let sum := sumOver (s.active.damChannels k) fun d => (t.chan d).actual
           (s.setOk → (t.chan c).actual ≠ x.actual → (s.active.damOf c).isSome = true →
             (t.damAt k).outflow = sum ∧ (t.damAt k).mark = s.clock) ∧
           ((s.inFlight = true ∨ t.pass.state = .deferred) →
             ((t.chan c).actual = x.actual → t.dams = s.dams ∧ t.reaches = s.reaches) ∧
             ((t.chan c).actual ≠ x.actual → (s.active.damOf c).isSome = true →
               let u := { s with channels := t.channels }.outflowReport k sum
               t.dams = u.dams ∧ t.reaches = u.reaches))) ∧
          s.passRequested t ∧
          t = { s with
            pass := t.pass, pools := t.pools, channels := t.channels, dams := t.dams, reaches := t.reaches
            links := t.links }) ∧
        (∀ d, d ≠ c → (s.chan d).undisturbed (t.chan d)) ∧ s.linksOnlyLatch t ∧
        s.latchesExactly t flowKinds fun _ _ => False)

/-- Reports in the other states: discarded in OFFLINE; in FAULT the measured position follows and the actual flow is held; in
TRIPPED the measured position and the actual flow follow, and a channel without a setpoint takes its first one with a command; a
change of the actual flow is an outflow report of the channel's dam. No condition latches but ROUTING_COARSENED. -/
def Obligations.ReportInOtherStates : Prop :=
  ∀ (s : State) (c : Nat) (p : Int), isChannel c = true →
    let x := s.chan c
    let r := s.active.channel c
    let m := (if p < 0 then 0 else if 1000 < p then 1000 else p).toNat
    (x.state = .offline → exec (.positionReport c p) s = .next s) ∧
    ((x.state = .fault ∨ x.state = .tripped) → (p < -20 ∨ 1020 < p) → exec (.positionReport c p) s = .next s) ∧
    (x.state = .fault → -20 ≤ p → p ≤ 1020 →
      exec (.positionReport c p) s = .next (s.setChan c { x with measured := some m })) ∧
    (x.state = .tripped → -20 ≤ p → p ≤ 1020 → s.linksOk → ∃ t, exec (.positionReport c p) s = .next t ∧
      (if x.setpoint.isSome then
        t.chan c = { x with measured := some m, actual := r.flow m (s.chanHead c) }
      else t.chan c = { x with
        measured := some m, actual := r.flow m (s.chanHead c), setpoint := some m, command := some m
        commandCount := x.commandCount + 1, rampTimer := some (s.clock + r.rampInterval) }) ∧
      (∀ d, d ≠ c → t.chan d = s.chan d) ∧ s.linksOnlyLatch t ∧
      (s.latchesExactly t [.routingCoarsened] fun _ _ => False) ∧
      (x.actual ≠ r.flow m (s.chanHead c) → (s.active.damOf c).isSome = true →
        let k := s.damOfChannel c
        t = { s with channels := t.channels }.outflowReport k
          (sumOver (s.active.damChannels k) fun d => (t.chan d).actual)) ∧
      (x.actual = r.flow m (s.chanHead c) → t.dams = s.dams ∧ t.reaches = s.reaches ∧ t.links = s.links) ∧
      t = { s with channels := t.channels, dams := t.dams, reaches := t.reaches, links := t.links })

/-- What entering FAULT does: the kind is recorded, the channel's timers stop, setpoint, target, position, actual flow, hold and command
stand, the target flow of a held channel following the head (log entry 13), CHANNEL_FAULT latches in the dam's scope and on no link out of
it, no other kind latching but those of targets and outflow, the fault is offered to the capture, an early pass is requested and the
targets of the dam are recomputed at once. Where no head changes SPILL_SHORTFALL latches exactly where that recompute finds the shortfall,
and ROUTING_COARSENED does not. The supervision timers: the tracking and feedback timers put a channel in READY or MOVING in FAULT, the
bring-up timer one in BRINGUP, each with its kind; a command before its timer's expiry, or in another state, has no effect (log entry 10).
-/
def Obligations.FaultEntry : Prop :=
  (∀ (s : State) (c : Nat) (kind : FaultKind), isChannel c = true → s.mode.running = true → s.linksOk →
    let x := s.chan c
    let t := s.enterFault c kind
    t.chan c = { x with
      state := .fault, faultKind := some kind, waitMark := false, rampTimer := none, trackTimer := none
      feedbackTimer := none, bringupTimer := none, targetFlow := (t.chan c).targetFlow
      shortfall := (t.chan c).shortfall } ∧
    (if x.holder.isSome = true ∧ (s.active.damOf c).isSome = true then
      (t.chan c).targetFlow = some ((s.active.channel c).flow (x.localOpening.getD 0) (t.chanHead c)) ∧
      (t.chan c).shortfall = false
    else (t.chan c).targetFlow = x.targetFlow ∧ (t.chan c).shortfall = x.shortfall) ∧
    (∀ d, d ≠ c → (s.chan d).undisturbed (t.chan d)) ∧
    (let k := s.damOfChannel c
     (s.latchesExactly t flowKinds fun kind l => kind = .channelFault ∧ s.inScope k l) ∧
     ((∀ j ∈ s.active.damNumbers, t.head j = s.head j) → s.latchesExactly t [] fun kind l => s.inScope k l ∧
       (kind = .channelFault ∨ (kind = .spillShortfall ∧ s.active.hasDam k = true ∧ (t.spillShares k).2 = true)))) ∧
    s.linksOnlyLatch t ∧ s.passRequested t ∧
    t.aimed (s.damOfChannel c) ∧
    (match s.capture with
      | none => t.capture = some
          { kind := kind.capture, subject := c, time := s.clock, setpoint := x.setpoint, measured := x.measured
            later := 0 }
      | some f => t.capture = some { f with later := if f.later < 255 then f.later + 1 else 255 }) ∧
    t = { s with
      capture := t.capture, pass := t.pass, pools := t.pools, channels := t.channels, dams := t.dams
      reaches := t.reaches, links := t.links }) ∧
  (∀ (s : State) (c : Nat), isChannel c = true →
    let x := s.chan c
    (exec (.trackingTimerExpiry c) s =
      .next (if x.inService = true ∧ s.due x.trackTimer = true then s.enterFault c .tracking else s)) ∧
    (exec (.feedbackTimerExpiry c) s =
      .next (if x.inService = true ∧ s.due x.feedbackTimer = true then s.enterFault c .noFeedback else s)) ∧
    (exec (.bringupTimerExpiry c) s =
      .next (if x.state = .bringup ∧ s.due x.bringupTimer = true then s.enterFault c .bringupTimeout else s)))

/-- One ramp step in READY or MOVING: the timer restarts, the setpoint moves toward the target by no more than the limit of its
direction and never past it, a command is sent exactly when it moves, and a channel whose setpoint equals its target is READY. A
step that changes the channel's state recomputes the targets of its dam (log entry 12). In TRIPPED it falls by the trip close limit.
Before the expiry, and in other states, there is no step (log entry 10). -/
def Obligations.RampStep : Prop :=
  ∀ (s : State) (c sp : Nat), isChannel c = true → (s.chan c).setpoint = some sp →
    let x := s.chan c
    let r := s.active.channel c
    let y := fun (sp' : Nat) => { x with
      rampTimer := some (s.clock + r.rampInterval), setpoint := some sp'
      command := if sp' = sp then x.command else some sp'
      commandCount := if sp' = sp then x.commandCount else x.commandCount + 1 }
    ((s.due x.rampTimer = false ∨ (x.inService = false ∧ x.state ≠ .tripped)) → exec (.rampStep c) s = .next s) ∧
    (s.due x.rampTimer = true → x.state = .tripped →
      exec (.rampStep c) s = .next (s.setChan c (y (sp - min sp r.tripLimit)))) ∧
    (s.due x.rampTimer = true → x.inService = true → ∀ target, x.target = some target →
      let sp' := if sp < target then sp + min (target - sp) r.openLimit else sp - min (sp - target) r.closeLimit
      let z := { y sp' with state := if sp' = target then .ready else .moving }
      exec (.rampStep c) s =
        .next (if z.state = x.state then s.setChan c z else (s.setChan c z).recompute (s.damOfChannel c)))

/-- The opening for a flow: the flow at it reaches the flow sought, no smaller opening does, and where no opening reaches it the
channel is opened whole with the shortfall mark.
The flow of a channel never falls as its gate opens. -/
def Obligations.OpeningForAFlow : Prop :=
  (∀ (r : ChanRec) (flow head : Nat), r.ok = true → 1 ≤ flow →
    let o := r.openingFor flow head
    r.openingFor 0 head = (0, false) ∧ o.1 ≤ 1000 ∧
    (flow ≤ r.capacity head → o.2 = false ∧ flow ≤ r.flow o.1 head ∧ ∀ p, p < o.1 → r.flow p head < flow) ∧
    (r.capacity head < flow → o = (1000, true))) ∧
  (∀ (r : ChanRec) (head a b : Nat), r.ok = true → a ≤ b → b ≤ 1000 → r.flow a head ≤ r.flow b head)

/-- The spill distribution goes by the rounds of R123: floor shares of the amount among the channels not yet capped, the remainder 1 FU
each to the lowest-numbered of them, the channels over their capacity capped at it and their surpluses placed in another round. It so
places the whole amount when the capacities hold it, no channel above its capacity, and is in shortfall exactly when they do not.
The spill target of a dam is so shared among its available SPILL channels in ascending order: the active grants of its SPILL claims, its
forced spill and its compensation sum. -/
def Obligations.SpillDistributionPlacesItAll : Prop :=
  (∀ (amount : Nat) (channels : List (Nat × Nat)),
    let d := distribute amount channels
    let room := sumOver channels (·.2)
    SpillRounds amount (channels.map fun c => { channel := c.1, capacity := c.2, share := 0, capped := false }) d ∧
    d.1.map (fun x => (x.channel, x.capacity)) = channels ∧
    (d.2 = true ↔ room < amount) ∧
    (amount ≤ room → sumOver d.1 (·.share) = amount ∧ ∀ x ∈ d.1, x.share ≤ x.capacity)) ∧
  (∀ (s : State) (k : Nat),
    let own := (s.active.damChannels k).filter fun c =>
      (s.active.channel c).kind = .spill ∧ (s.chan c).inService = true ∧ (s.chan c).holder = none
    let amount := sumOver (s.claims.filter fun c =>
        c.kind = .spill ∧ c.dam = k ∧ c.start ≤ s.clock ∧ (∀ e, c.finish = some e → s.clock < e)) (·.grant) +
      (s.planAt k).forced + sumOver (s.planAt k).entries (·.flow)
    own.Pairwise (· < ·) ∧
    s.spillShares k = distribute amount (own.map fun c => (c, (s.active.channel c).capacity (s.chanHead c))))

/-- The targets of a dam recomputed: a held channel aims at its local opening, a unit at the opening for its active grants, a spill
channel at the opening for its share or whole in a shortfall; a channel in READY or MOVING is READY exactly when its target is its
setpoint; in BRINGUP and FAULT the target stands, the target flow of a held channel following the head; and no channel of another dam
changes. A shortfall latches SPILL_SHORTFALL in the scope of a configured dam, and nothing else latches. The clear shortfall mark in a
SPILL_SHORTFALL, the target flow 0 and the clear mark in TRIPPED, and the target flow and the clear mark of a held channel in BRINGUP and
FAULT, are the model's (log entry 13). -/
def Obligations.RecomputeSetsTheTargets : Prop :=
  ∀ (s : State) (k c : Nat), isChannel c = true →
    let t := s.recompute k
    let x := s.chan c
    let r := s.active.channel c
    let y := t.chan c
    let aimed := fun (o flow : Nat) (short : Bool) =>
      y = { x with
        target := some o, targetFlow := some flow, shortfall := short
        state := if x.setpoint = some o then .ready else .moving }
    (s.active.inDam k c = false → y = x) ∧
    (s.active.inDam k c = true →
      ((x.state = .bringup ∨ x.state = .fault) → x.holder = none → y = x) ∧
      ((x.state = .bringup ∨ x.state = .fault) → ∀ l o, x.holder = some l → x.localOpening = some o →
        y = { x with targetFlow := some (r.flow o (s.chanHead c)), shortfall := false }) ∧
      (x.state = .offline → y = { x with target := none, targetFlow := none }) ∧
      (x.state = .tripped → y = { x with target := some 0, targetFlow := some 0, shortfall := false }) ∧
      (x.inService = true → ∀ l o, x.holder = some l → x.localOpening = some o →
        aimed o (r.flow o (s.chanHead c)) false) ∧
      (x.inService = true → x.holder = none → r.kind = .turbine →
        let o := r.openingFor (s.unitTarget c) (s.chanHead c)
        aimed o.1 (s.unitTarget c) o.2) ∧
      (x.inService = true → x.holder = none → r.kind = .spill → (s.spillShares k).2 = true →
        aimed 1000 (r.capacity (s.chanHead c)) false) ∧
      (x.inService = true → x.holder = none → r.kind = .spill → (s.spillShares k).2 = false →
        ∃ share ∈ (s.spillShares k).1, share.channel = c ∧
          aimed (r.openingFor share.share (s.chanHead c)).1 share.share
            (r.openingFor share.share (s.chanHead c)).2)) ∧
    (s.latchesExactly t [] fun kind l =>
      kind = .spillShortfall ∧ s.active.hasDam k = true ∧ (s.spillShares k).2 = true ∧ s.inScope k l) ∧
    t = { s with channels := t.channels, links := t.links }

/-- A trip of a unit in service: TRIPPED with no hold, no fault kind and target 0, its setpoint one trip step lower with a
command; the unit's claims SUSPENDED with their grants held; UNIT_TRIP latched in the dam's scope and on no link out of it, no other kind
latching but those of targets and outflow, and of these where no head changes SPILL_SHORTFALL alone, where the compensation is cut or the
recompute finds a shortfall; an early pass requested. Where
its dam compensates, the smaller of the unit's actual flow and its claims' grants, cut to the spare spill and to 60,000 with
SPILL_SHORTFALL latched where that is less, joins the unit's compensation entry or makes one at the end of the list. The published
forecast loses the grants and gains the entry's rise, from the present second. The targets of the dam are recomputed at once; the
release of a line keeps its level alone (log entry 9).
An assertion on a channel that is not a unit, is not configured, is OFFLINE or is TRIPPED already, and every release, change the
line's level alone; an assertion of an asserted input is none. -/
def Obligations.TripInputs : Prop :=
  (∀ (s : State) (c : Nat), isChannel c = true → s.mode.running = true → s.linksOk → s.tripLine c = false →
    (s.active.damOf c).isSome = true → (s.active.channel c).kind = .turbine →
    (s.chan c).state ≠ .offline → (s.chan c).state ≠ .tripped →
    let x := s.chan c
    let r := s.active.channel c
    ∃ t, exec (.tripAssertion c) s = .next t ∧
      t.tripLine c = true ∧ (∀ d, d ≠ c → t.tripLine d = s.tripLine d) ∧
      (t.chan c).state = .tripped ∧ (t.chan c).holder = none ∧ (t.chan c).localOpening = none ∧
      (t.chan c).orphan = false ∧ (t.chan c).faultKind = none ∧ (t.chan c).waitMark = false ∧
      (t.chan c).target = some 0 ∧ (t.chan c).bringupTimer = none ∧ (t.chan c).trackTimer = none ∧
      (t.chan c).feedbackTimer = none ∧ (t.chan c).measured = x.measured ∧
      (match x.setpoint with
        | none => (t.chan c).setpoint = none ∧ (t.chan c).commandCount = x.commandCount
        | some sp => (t.chan c).setpoint = some (sp - min sp r.tripLimit) ∧
            (t.chan c).command = some (sp - min sp r.tripLimit) ∧
            (t.chan c).commandCount = x.commandCount + 1 ∧
            (t.chan c).rampTimer = some (s.clock + r.rampInterval)) ∧
      t.claims = s.claims.map (fun d =>
        if d.kind = .turbine c then
          { d with
            state := .suspended, grant := 0, held := if d.state = .suspended then d.held else some d.grant }
        else d) ∧
      (∀ d, d ≠ c → (s.chan d).undisturbed (t.chan d)) ∧ (s.setOk → t.aimed (s.damOfChannel c)) ∧
      (s.active.cascade.damCount ≤ 6 →
        let k := s.damOfChannel c
        let plan := s.planAt k
        let wanted := min x.actual (sumOver (s.claims.filter fun d => d.kind = .turbine c) (·.grant))
        let spare := sumOver (s.spillChannels k) s.capacity -
          sumOver (s.claims.filter fun d => d.kind = .spill ∧ d.dam = k) (·.grant) - plan.forced -
          sumOver plan.entries (·.flow)
        let given := min wanted (min spare 60000)
        (∀ j, j ≠ k → t.planAt j = s.planAt j) ∧
        ((s.active.dam k).compensate = false ∨ given = 0 → t.planAt k = plan) ∧
        ((s.active.dam k).compensate = true → given ≠ 0 →
          t.planAt k = { plan with
            entries := if plan.entries.any (fun e => e.unit == c) = true then
              plan.entries.map fun e => if e.unit = c then { e with flow := min 60000 (e.flow + given) } else e
            else plan.entries ++ [{ unit := c, flow := given }] }) ∧
        ((s.active.dam k).compensate = true → given < wanted → s.latchedFor t .spillShortfall k) ∧
        ((∀ j ∈ s.active.damNumbers, t.head j = s.head j) → s.latchesExactly t [] fun kind l => s.inScope k l ∧
          (kind = .unitTrip ∨ (kind = .spillShortfall ∧
            (((s.active.dam k).compensate = true ∧ given < wanted) ∨ (t.spillShares k).2 = true)))) ∧
        (s.forecast = none → t.forecast = none) ∧
        (∀ f, s.forecast = some f →
          let travel := fun (j : Nat) => (s.active.reach j).travel
          let ending := fun (d : Claim) => d.finish.getD (f.start + 12 * f.bin)
          let rise : Int := (sumOver (t.planAt k).entries (·.flow) : Int) - sumOver plan.entries (·.flow)
          ∃ g, t.forecast = some g ∧ f.changedBy g
            (fun j b =>
              (sumClaims s.claims fun d =>
                if d.kind = .turbine c then
                  -releaseOnF f s.damCount (travel d.dam) d.dam d.grant (max d.start s.clock) (ending d) j b
                else 0) + constantOnF f s.damCount (travel k) k rise s.clock j b)
            (fun j b =>
              (sumClaims s.claims fun d =>
                if d.kind = .turbine c then removalOnP f d.dam d.grant (max d.start s.clock) (ending d) j b
                else 0) + constantOnP f k rise s.clock j b))) ∧
      (s.latchesExactly t flowKinds fun kind l => kind = .unitTrip ∧ s.inScope (s.damOfChannel c) l) ∧
      s.linksOnlyLatch t ∧ s.passRequested t ∧
      t = { s with
        tripLines := t.tripLines, claims := t.claims, plans := t.plans, forecast := t.forecast, pass := t.pass
        pools := t.pools, channels := t.channels, dams := t.dams, reaches := t.reaches, links := t.links }) ∧
  (∀ (s : State) (c : Nat), isChannel c = true →
    (s.tripLine c = true → exec (.tripAssertion c) s = .next s) ∧
    (s.tripLine c = false →
      ((s.active.damOf c).isSome = false ∨ (s.active.channel c).kind = .spill ∨ (s.chan c).state = .offline ∨
        (s.chan c).state = .tripped) →
      exec (.tripAssertion c) s = .next { s with tripLines := put0 s.tripLines c true }) ∧
    exec (.tripRelease c) s = .next { s with tripLines := put0 s.tripLines c false })

/-! ### Release claims -/

/-- The start of a claim with a positive grant recomputes its dam's targets. The end of a claim takes it from the table, with its entry's
decay, the fall of the compensation sum in the published forecast, the targets recomputed where its grant was positive or that sum falls
and, at an abandon deadline alone, CLAIM_ENDED for its owner, no other kind latching but SPILL_SHORTFALL; with a pass in flight the claim
stays and only stops counting, its end marked as taken (log entry 19). A start or an end that is not reached has no effect (log entry 10).
-/
def Obligations.ClaimStartAndEnd : Prop :=
  ∀ (s : State) (slot : Nat), isSlot slot = true → s.claimsOk → s.linksOk →
    (s.claimAt slot = none → exec (.claimStartReached slot) s = .next s ∧ exec (.claimEndReached slot) s = .next s) ∧
    ∀ c, s.claimAt slot = some c → 1 ≤ c.dam → c.dam ≤ 6 →
      (exec (.claimStartReached slot) s = .next (if c.start ≤ s.clock ∧ c.grant ≠ 0 then s.recompute c.dam else s)) ∧
      ((c.endedAt s.clock = false ∨ c.reached = true) → exec (.claimEndReached slot) s = .next s) ∧
      (c.endedAt s.clock = true → c.reached = false → ∃ t, exec (.claimEndReached slot) s = .next t ∧
        (s.inFlight = true →
          t.claims = s.claims.map (fun d => if d.handle = c.handle then { d with reached := true } else d) ∧
          t = { s with claims := t.claims, channels := t.channels, links := t.links }) ∧
        (s.inFlight = false →
          t.claims = s.claims.filter (fun d => d.handle ≠ c.handle) ∧
          (c.held = none → t.plans = s.plans ∧ t.forecast = s.forecast) ∧
          (∀ u, c.kind = .turbine u → c.held.isSome = true →
            (t.planAt c.dam).entries = decayEntries u (t.heldSum u) (s.planAt c.dam).entries) ∧
          (∀ k, k ≠ c.dam → t.planAt k = s.planAt k) ∧
          (s.forecast = none → t.forecast = none) ∧
          (∀ f, s.forecast = some f →
            let travel := (s.active.reach c.dam).travel
            let fall : Int := (sumOver (t.planAt c.dam).entries (·.flow) : Int) - sumOver (s.planAt c.dam).entries (·.flow)
            ∃ g, t.forecast = some g ∧ f.changedBy g (constantOnF f s.damCount travel c.dam fall s.clock)
              (constantOnP f c.dam fall s.clock)) ∧
          t = { s with
            claims := t.claims, plans := t.plans, forecast := t.forecast, channels := t.channels
            links := t.links }) ∧
        (c.grant = 0 → c.held = none → t.channels = s.channels) ∧
        (c.grant ≠ 0 → t.aimed c.dam) ∧
        (sumOver (t.planAt c.dam).entries (·.flow) ≠ sumOver (s.planAt c.dam).entries (·.flow) → t.aimed c.dam) ∧
        (∀ d, (s.chan d).undisturbed (t.chan d)) ∧ s.linksOnlyLatch t ∧
        s.latchesExactly t [.spillShortfall] fun kind l =>
          kind = .claimEnded ∧ s.inFlight = false ∧ c.deadline.isSome = true ∧ c.owner = l)

/-- The checks of a RELEASE by its owning block, in their order: NOT_PERMITTED where the link's class may not place the kind at the
dam; BAD_INDEX where the dam is not configured, or a unit, by the link's numbering, is no TURBINE channel of it; BAD_VALUE where
urgency, flow, minimum, offset or duration is outside its range; and otherwise it is accepted with the unit's global number, a
minimum of 1 where it gives none, and no duration where it gives none.
A RELEASE that fails them is refused with that status, without effect. One that passes them while a pass is in flight, while no
forecast is published, or in COORDINATE beyond the forecast's horizon joins the intake queue, and its reply waits. -/
def Obligations.ReleaseRefusedOrQueued : Prop :=
  (∀ (s : State) (l : Nat) (b : RawRelease), b.kind ≤ 1 →
    let cls := s.linkClass l
    let k := (s.active.link l).dam
    let placed := (cls = .dispatch ∧ b.kind = 0) ∨ (cls = .flood ∧ b.kind = 1) ∨ (cls = .station ∧ k = b.dam)
    let unit := if cls = .station then (s.active.dam k).firstChannel + b.unit else b.unit
    let named := if cls = .station then 1 ≤ k ∧ k ≤ s.damCount ∧ b.unit < 8 ∧ b.unit < (s.active.dam k).channelCount
      else b.unit < 32 ∧ (s.active.damOf b.unit).isSome = true
    let there := 1 ≤ b.dam ∧ b.dam ≤ s.damCount ∧
      (b.kind = 0 → named ∧ (s.active.dam b.dam).firstChannel ≤ unit ∧
        unit < (s.active.dam b.dam).firstChannel + (s.active.dam b.dam).channelCount ∧
        (s.active.channel unit).kind = .turbine)
    let valid := b.urgency ≤ 3 ∧ 1 ≤ b.requested ∧ b.requested ≤ 60000 ∧
      (b.flags % 2 = 1 → 1 ≤ b.minimum ∧ b.minimum ≤ b.requested) ∧ b.offset ≤ 86400 ∧
      (b.flags / 2 % 2 = 1 → 1 ≤ b.duration ∧ b.duration ≤ 604800)
    s.checkRelease l b =
      if ¬ placed then .error .notPermitted
      else if ¬ there then .error .badIndex
      else if ¬ valid then .error .badValue
      else .ok
        { dam := b.dam, kind := if b.kind = 1 then .spill else .turbine unit, urgency := b.urgency
          requested := b.requested, minimum := if b.flags % 2 = 1 then b.minimum else 1, offset := b.offset
          duration := if b.flags / 2 % 2 = 1 then some b.duration else none }) ∧
  (∀ (s : State) (l tag : Nat) (b : RawRelease), (Instr.release l tag b).wf = true → s.admits l (.release b) →
    (∀ st, s.checkRelease l b = .error st → ∃ t, exec (.release l tag b) s = .next t ∧
      s.onlyAnswers t l 0x82 tag (.status st)) ∧
    (∀ r, s.checkRelease l b = .ok r →
      (s.inFlight = true ∨ s.forecast = none ∨
        ∃ f, s.forecast = some f ∧ s.mode = .coordinate ∧ f.start + 12 * f.bin ≤ s.clock) →
      ∃ t, exec (.release l tag b) s = .next t ∧
        t = { s with links := t.links, intake := s.intake ++
          [{ link := l, tag := tag, request := r, arrival := s.clock, cls := s.linkClass l
             dam := (s.active.link l).dam }] } ∧
        (∀ m, m ≠ l → t.linkAt m = s.linkAt m) ∧
        t.linkAt l = { s.linkAt l with
          rx := [], timer := some (s.clock + (s.active.link l).timeout), lastFrame := some s.clock
          buffer := (s.linkAt l).buffer ++ [{ kind := 0x82, tag := tag }] }))

/-- A RELEASE that passes the owning block's checks and does not queue enters the lowest free slot, at the end of the list, with
the slot's next generation: in HOLD and SERVICE PENDING, or SUSPENDED on an unavailable unit; in COORDINATE with the state and
grant its admission gives, the grant added to the published forecast over the claim's window, the dam's targets recomputed by it,
and an early pass requested where it is CLAMPED or PENDING and a lower-ranked claim has a positive grant. One that enters SUSPENDED holds
the held grant 0, and any other none; its working values are 0, PENDING and no end (the model's choice, log entry 18), and its end is
not marked as taken (log entry 19). No condition latches but the kinds of targets and outflow. A full table refuses it.
A STATUS frame that the request raises is ready before its reply (log entry 6). -/
def Obligations.ReleaseEntersTheTable : Prop :=
  ∀ (s : State) (l tag : Nat) (b : RawRelease) (r : ClaimRequest) (f : Forecast),
    (Instr.release l tag b).wf = true → s.admits l (.release b) → s.claimsOk → s.linksOk →
    s.checkRelease l b = .ok r → s.inFlight = false → s.forecast = some f →
    (s.mode = .coordinate → s.clock < f.start + 12 * f.bin) →
    ∃ t, exec (.release l tag b) s = .next t ∧
      (s.freeSlot = none → s.onlyAnswers t l 0x82 tag (.status .tableFull)) ∧
      ∀ n, s.freeSlot = some n →
        n < 64 ∧ s.claimAt n = none ∧ (∀ m, m < n → (s.claimAt m).isSome) ∧
        ∃ d, t.claims = s.claims ++ [d] ∧
          d.handle = (get0 s.generations n + 1) % 1024 * 64 + n ∧ d.owner = l ∧ d.group = (s.linkClass l).group ∧
          d.urgency = b.urgency ∧ d.dam = b.dam ∧ d.kind = r.kind ∧ d.requested = b.requested ∧
          d.minimum = (if b.flags % 2 = 1 then b.minimum else 1) ∧ d.start = s.clock + b.offset ∧
          d.finish = (if b.flags / 2 % 2 = 1 then some (s.clock + b.offset + b.duration) else none) ∧
          d.deadline = none ∧ d.withdrawn = .clear ∧ d.reached = false ∧
          d.held = (if d.state = .suspended then some 0 else none) ∧
          d.workGrant = 0 ∧ d.workState = .pending ∧ d.workEnd = none ∧
          get0 t.generations n = (get0 s.generations n + 1) % 1024 ∧
          (∀ m, m ≠ n → get0 t.generations m = get0 s.generations m) ∧
          grantFits d d.state d.grant ∧ (d.state = .suspended ↔ s.unitUnavailable d = true) ∧
          (t.linkAt l).gives 0x82 tag (.claim d.state d.handle d.grant) ∧
          (s.mode ≠ .coordinate → d.grant = 0 ∧ s.answers t l 0x82 tag (.claim d.state d.handle d.grant) ∧
            t = { s with claims := t.claims, generations := t.generations, links := t.links }) ∧
          (s.mode = .coordinate →
            (d.state, d.grant) = s.admitClaim { d with state := .pending, grant := 0, held := none } f s.clock
              (·.grant) (s.planAt d.dam).forced ∧
            ((d.state = .granted ∨ d.state = .suspended ∨ s.lowerRankedGrant d = false) → t.pass = s.pass) ∧
            ((d.state = .clamped ∨ d.state = .pending) →
              (∃ x ∈ s.claims, x.grant ≠ 0 ∧ s.active.precedence.rank d < s.active.precedence.rank x) →
              s.passRequested t) ∧
            (d.grant = 0 → t.forecast = s.forecast) ∧ (d.grant ≠ 0 → s.setOk → t.aimed d.dam) ∧
            (let first := max d.start s.clock
             let last := d.finish.getD (f.start + 12 * f.bin)
             ∃ g, t.forecast = some g ∧ f.changedBy g
              (releaseOnF f s.damCount (s.active.reach d.dam).travel d.dam d.grant first last)
              (releaseOnP f d.dam d.grant first last)) ∧
            s.answersAmid t l 0x82 tag (.claim d.state d.handle d.grant) ∧
            (s.latchesExactly t flowKinds fun _ _ => False) ∧
            (∀ c, (s.chan c).undisturbed (t.chan c)) ∧
            t = { s with
              claims := t.claims, generations := t.generations, forecast := t.forecast, pass := t.pass
              pools := t.pools, channels := t.channels, dams := t.dams, reaches := t.reaches, links := t.links })

/-- WITHDRAW: a stale handle is refused NO_SUCH_CLAIM, a link that is neither the owner nor of class SERVICE NOT_PERMITTED.
Otherwise the reply is OK: with a pass in flight the claim is marked and stays, a mark that stands being left; with none it leaves
the table at once with its release taken from the published forecast, a held grant lowering its unit's compensation entry with the
fall in the forecast, the dam's targets recomputed where a positive grant or a compensation sum goes, a SERVICE link's removal of another
link's claim latching CLAIM_ENDED for the owner, and nothing else but SPILL_SHORTFALL latching.
A STATUS frame that the request raises is ready before its reply (log entry 6). -/
def Obligations.Withdraw : Prop :=
  ∀ (s : State) (l tag handle : Nat), (Instr.withdraw l tag handle).wf = true → s.admits l (.withdraw handle) →
    s.claimsOk → s.linksOk →
    ∃ t, exec (.withdraw l tag handle) s = .next t ∧
      ((∀ c ∈ s.claims, c.handle ≠ handle) → s.onlyAnswers t l 0x83 tag (.status .noSuchClaim)) ∧
      ∀ c ∈ s.claims, c.handle = handle →
        (c.owner ≠ l → s.linkClass l ≠ .service → s.onlyAnswers t l 0x83 tag (.status .notPermitted)) ∧
        ((c.owner = l ∨ s.linkClass l = .service) → s.inFlight = true →
          s.answers t l 0x83 tag (.status .ok) ∧ t = { s with claims := t.claims, links := t.links } ∧
          t.claims = s.claims.map fun d =>
            if d.handle = handle ∧ d.withdrawn = .clear then
              { d with withdrawn := if d.owner = l then .byOwner else .byService }
            else d) ∧
        ((c.owner = l ∨ s.linkClass l = .service) → s.inFlight = false →
          s.answersAmid t l 0x83 tag (.status .ok) ∧ t.claims = s.claims.filter (fun d => d.handle ≠ handle) ∧
          (c.held = none → t.plans = s.plans ∧ t.forecast = s.forecast.map fun f =>
            f.removeRelease s.damCount (s.active.reach c.dam).travel c.dam c.grant (max c.start s.clock)
              (c.finish.getD (f.start + 12 * f.bin))) ∧
          (1 ≤ c.dam → c.dam ≤ 6 →
            let plan := s.planAt c.dam
            let fall : Int := (sumOver (t.planAt c.dam).entries (·.flow) : Int) - sumOver plan.entries (·.flow)
            (∀ k, k ≠ c.dam → t.planAt k = s.planAt k) ∧
            (∀ u, c.kind = .turbine u → c.held.isSome = true → t.planAt c.dam = { plan with
              entries := (plan.entries.map fun e =>
                if e.unit = u then { e with flow := min e.flow (t.heldSum u) } else e).filter fun e => 0 < e.flow }) ∧
            (c.kind = .spill → t.plans = s.plans) ∧ (c.grant ≠ 0 → t.aimed c.dam) ∧ (fall ≠ 0 → t.aimed c.dam) ∧
            (s.forecast = none → t.forecast = none) ∧
            (∀ f, s.forecast = some f →
              let travel := (s.active.reach c.dam).travel
              let first := max c.start s.clock
              let last := c.finish.getD (f.start + 12 * f.bin)
              ∃ g, t.forecast = some g ∧ f.changedBy g
                (fun j b => -releaseOnF f s.damCount travel c.dam c.grant first last j b +
                  constantOnF f s.damCount travel c.dam fall s.clock j b)
                (fun j b => removalOnP f c.dam c.grant first last j b + constantOnP f c.dam fall s.clock j b))) ∧
          (s.latchesExactly t [.spillShortfall] fun kind m => kind = .claimEnded ∧ c.owner ≠ l ∧ c.owner = m) ∧
          (c.grant = 0 → c.held = none → t.channels = s.channels) ∧
          (∀ d, (s.chan d).undisturbed (t.chan d)) ∧
          t = { s with
            claims := t.claims, plans := t.plans, forecast := t.forecast, channels := t.channels
            links := t.links })

/-- DECLARE_INFLOW: the rates given, each at most 60,000, with the last of them in every later bin, become the pool's pending
declaration; an early pass is requested, which binds them at once if it takes its bases; the reply is OK. With no pass in flight the
pass starts at once, DEFERRED exactly where a configured pool is in AWAIT, and otherwise RUNNING with every basis taken. No condition
latches but the kinds of targets and outflow.
A STATUS frame that the request raises is ready before its reply (log entry 6). -/
def Obligations.DeclareInflow : Prop :=
  ∀ (s : State) (l tag pool : Nat) (rates : List Nat), (Instr.declareInflow l tag pool rates).wf = true →
    s.admits l (.declareInflow pool rates) → s.linksOk → s.active.cascade.damCount ≤ 6 →
    ∃ t d, exec (.declareInflow l tag pool rates) s = .next t ∧
      (∀ j, 1 ≤ j → j ≤ 12 →
        get1 (d : Bins Nat) j = min 60000 (if j ≤ rates.length then rates.getD (j - 1) 0 else rates.getLast?.getD 0)) ∧
      State.passRequested (s.setPool pool { s.poolAt pool with declared := some d }) t ∧
      s.answersAmid t l 0x84 tag (.status .ok) ∧ (s.latchesExactly t flowKinds fun _ _ => False) ∧
      ((s.inFlight = true ∨ s.awaiting = true) →
        t.poolAt pool = { s.poolAt pool with declared := some d } ∧ (∀ k, k ≠ pool → t.poolAt k = s.poolAt k)) ∧
      (s.inFlight = false → s.awaiting = true → t.pass.state = .deferred) ∧
      (s.inFlight = false → s.awaiting = false →
        t.pass.state = .running ∧ get1 t.pass.rates pool = d ∧ (t.poolAt pool).declared = none) ∧
      (∀ c, (s.chan c).undisturbed (t.chan c)) ∧
      t = { s with
        pools := t.pools, pass := t.pass, channels := t.channels, dams := t.dams, reaches := t.reaches
        links := t.links }

/-- The state, the grant and the held grant of a claim change only at its entry, at a publish, at a trip and at an activation's
bring-up that finds one; every other command leaves them to every claim it leaves in the table. Characters may carry whole frames,
so FRAME_DISCARDED stands apart.
Out of COORDINATE no claim holds a positive grant, but while a pass in flight is to take it: one whose sweep is still to be made or gave
no working grant, or one that the again flag has followed by another. Every step keeps that, one that leaves COORDINATE among them;
from a state out of COORDINATE without grants every step leaves one without grants; and out of COORDINATE the publish of a pass that
no other is to follow leaves no grant. -/
def Obligations.GrantsChangeOnlyAtTheirPoints : Prop :=
  (∀ (c : Instr) (s t : State), exec c s = .next t →
    (∀ u, c ≠ .tripAssertion u) → c ≠ .publish → c ≠ .passCompletion → c ≠ .loadComplete →
    (∀ l tag b, c ≠ .release l tag b) → (∀ l tag, c ≠ .leaveService l tag) → (∀ l bytes, c ≠ .frameDiscarded l bytes) →
    ∀ d ∈ t.claims, ∃ e ∈ s.claims,
      e.handle = d.handle ∧ e.state = d.state ∧ e.grant = d.grant ∧ e.held = d.held ∧ e.owner = d.owner ∧
      e.requested = d.requested ∧ e.minimum = d.minimum ∧ e.start = d.start) ∧
  (∀ s t : State, s.grantsByMode → step s = .next t → t.grantsByMode) ∧
  (∀ s t : State, s.mode ≠ .coordinate → s.grantless → step s = .next t → t.grantless) ∧
  (∀ s : State, s.atStage .publish = true → s.mode ≠ .coordinate → s.pass.again = false → s.grantsByMode →
    ∃ t, exec .publish s = .next t ∧ t.grantless)

/-! ### What every step keeps -/

/-- Every opening a channel holds, and every command sent to its actuator, stays within 0 to 1000 per-mille; and the hold, the
marks, the setpoint and the timers of a channel stay those its state allows. -/
def Obligations.ChannelsStaySound : Prop :=
  ∀ s t : State, s.openingsOk → s.channelsOk → step s = .next t → t.openingsOk ∧ t.channelsOk

/-- The claim table keeps one claim a slot under its current generation, and every claim the grant its state allows.
The active set is the empty set or one that passed validation, the limit storages are those of its pools, exactly the channels it does
not configure are OFFLINE while the part runs, and the unit of every TURBINE claim stays a TURBINE channel of its dam.
While the sweep is the next stage of a pass every claim stands with working grant 0, as stage 3 has left it, and in working state
PENDING (the model's choice, log entry 26). -/
def Obligations.ClaimTableStaysWellFormed : Prop :=
  (∀ s t : State, s.claimsOk → step s = .next t → t.claimsOk) ∧
  (∀ s t : State, s.sweepReady → step s = .next t → t.sweepReady) ∧
  (∀ s t : State, s.quietOk → s.setOk → s.unitsOk → step s = .next t → t.setOk ∧ t.unitsOk)

/-- The dam plans stay in range, with one entry a unit; the fault capture's later-fault count stays at most 255; and a settings
write in flight leaves the stored image without a valid checksum. -/
def Obligations.PlansCaptureAndStoreStaySound : Prop :=
  ∀ s t : State, s.plansOk → s.captureOk → s.storeOk → step s = .next t → t.plansOk ∧ t.captureOk ∧ t.storeOk

/-- A reach's queue keeps at most 32 steps, in the order they departed, none after the present second. -/
def Obligations.StepQueuesStayOrdered : Prop :=
  ∀ s t : State, s.reachesOk → step s = .next t → t.reachesOk

/-- A link's buffer keeps at most four requests, its transmitter never rests while something waits, a formed first reply is always
on its way, once (a request leaves the buffer as its reply begins, log entry 6), and a link that is up with an unmasked kind
latched is owed a read, a set mask bit masking its kind (log entry 5); and no STATUS frame waits on a link that is down (log entry
7). -/
def Obligations.LinksStayServed : Prop :=
  ∀ s t : State, s.linksOk → step s = .next t → t.linksOk

/-- In LOADING and CONFIG_FAULT nothing is configured and nothing runs. -/
def Obligations.QuietWhileNotRunning : Prop :=
  ∀ s t : State, s.quietOk → step s = .next t → t.quietOk

/-! ### Master links -/

/-- PING has no effect beyond link supervision, and is answered OK in every mode and from every class. RESTART from a permitted link
takes effect when it is checked and is not answered: every link takes its reset state, replies not yet sent are lost, and the
identity record tells the reset cause; the trip lines stand (log entry 9), and so do the waiting commands and the count of free
values, which are the model's own fields (log entry 18). -/
def Obligations.PingAndRestart : Prop :=
  ∀ (s : State) (l tag : Nat), isRequest l tag = true → s.takes l → (s.linkAt l).ok →
    (∃ t, exec (.ping l tag) s = .next t ∧ s.onlyAnswers t l 0x81 tag (.status .ok)) ∧
    (s.linkClass l = .service → ∃ t, exec (.restart l tag) s = .next t ∧
      (∀ m, t.linkAt m = {}) ∧ t.identityView.cause = .restart ∧
      t = { State.reset with
        pending := s.pending, freeCount := s.freeCount, tripLines := s.tripLines, resetCause := .restart
        store := { image := s.store.image, checksum := s.store.checksum } })

/-- A request that fails a check of R150 is answered with the first failing check's status, an unknown kind BAD_VALUE with reply kind
0xFF, each without another effect than its frame's. A frame that finds four requests buffered is answered BUSY with its tag, begun at once
on an idle transmitter and else behind what waits for it, and does nothing else but its supervision. That the BUSY reply goes behind a
formed reply of the first request that waits already is the model's (log entry 37). That a frame of an unknown kind has reply kind 0xFF
there too is the model's (log entry 34). -/
def Obligations.RequestsTurnedAway : Prop :=
  (∀ (c : Instr) (s : State) (l tag : Nat) (r : Request) (st : Status), c.wf = true →
    requestOfCommand c = some (l, tag, r) → s.takes l → (s.linkAt l).ok → s.refusal l r = some st →
    ∃ t, exec c s = .next t ∧ s.onlyAnswers t l r.replyKind tag (.status st)) ∧
  (∀ (s : State) (l tag k : Nat), (Instr.unknownKind l tag k).wf = true → s.takes l → (s.linkAt l).ok →
    ∃ t, exec (.unknownKind l tag k) s = .next t ∧ s.onlyAnswers t l 0xFF tag (.status .badValue)) ∧
  (∀ (c : Instr) (s : State) (l tag : Nat) (r : Request), c.wf = true → requestOfCommand c = some (l, tag, r) →
    (s.linkAt l).up = true → (s.linkAt l).buffer.length = 4 → (s.linkAt l).ok →
    ∃ t, exec c s = .next t ∧ t = { s with links := t.links } ∧ (∀ m, m ≠ l → t.linkAt m = s.linkAt m) ∧
      (let x := s.linkAt l
       t.linkAt l = { x with
        rx := [], timer := some (s.clock + (s.active.link l).timeout), lastFrame := some s.clock
        sending := if x.sending = none then some (.reply r.replyKind tag (.status .busy)) else x.sending
        waiting := if x.sending = none then [] else x.waiting ++ [.busy r.replyKind tag] }))

/-- What passes the mode, class, code and index checks of R150, for the requests that name no table; and for every request the
status of the first check it fails: WRONG_MODE by the mode column of R151 as R152 narrows it (log entry 15), NOT_PERMITTED by its
class, BAD_VALUE by its codes, BAD_INDEX by its indices, a channel index being global from 0 to 31 and from a STATION link relative
to its dam's first channel. An unknown kind is BAD_VALUE in every mode. -/
def Obligations.WhatPassesTheChecks : Prop :=
  (∀ (s : State) (l : Nat),
    let cls := s.linkClass l
    let channelIn := fun (i : Nat) => (s.mapChannel l i).isSome = true
    (s.refusal l .ping = none) ∧ (s.refusal l .readConditions = none) ∧
    (∀ b, s.refusal l (.release b) = none ↔
      s.mode.running = true ∧ cls ≠ .service ∧ b.kind ≤ 1 ∧ b.flags < 4) ∧
    (∀ h, s.refusal l (.withdraw h) = none ↔ s.mode.running = true) ∧
    (∀ p rates, s.refusal l (.declareInflow p rates) = none ↔
      s.mode.running = true ∧ (cls = .flood ∨ cls = .service) ∧ s.active.hasDam p = true) ∧
    (∀ i, s.refusal l (.takeLocal i) = none ↔
      (s.mode = .hold ∨ s.mode = .coordinate) ∧ cls = .station ∧ channelIn i) ∧
    (∀ i o, s.refusal l (.setOpening i o) = none ↔ s.mode.running = true ∧ cls = .station ∧ channelIn i) ∧
    (∀ i, (s.refusal l (.releaseLocal i) = none ↔
        s.mode.running = true ∧ (cls = .station ∨ cls = .service) ∧ channelIn i) ∧
      (s.refusal l (.clearFault i) = none ↔
        s.mode.running = true ∧ (cls = .station ∨ cls = .service) ∧ channelIn i) ∧
      (s.refusal l (.resetTrip i) = none ↔
        s.mode.running = true ∧ (cls = .station ∨ cls = .service) ∧ channelIn i) ∧
      (s.refusal l (.bringUp i) = none ↔ s.mode.running = true ∧ cls = .service ∧ channelIn i)) ∧
    (∀ m, s.refusal l (.setMask m) = none ↔ s.mode.running = true ∧ m < 4096) ∧
    (s.refusal l .resume = none ↔ s.mode = .hold ∧ (cls = .flood ∨ cls = .service)) ∧
    (s.refusal l .hold = none ↔ s.mode = .coordinate ∧ (cls = .flood ∨ cls = .service)) ∧
    (s.refusal l .enterService = none ↔ s.mode = .hold ∧ cls = .service) ∧
    (s.refusal l .leaveService = none ↔ (s.mode = .service ∨ s.mode = .configFault) ∧ cls = .service) ∧
    (s.refusal l .storeSettings = none ↔ (s.mode = .hold ∨ s.mode = .service) ∧ cls = .service) ∧
    (s.refusal l .restart = none ↔ cls = .service) ∧
    (∀ k i, s.refusal l (.query k i) = none ↔
      (s.mode = .configFault → cls = .service) ∧ 1 ≤ k ∧ k ≤ 8 ∧ s.queryIndexOk l k i = true)) ∧
  (∀ (s : State) (l : Nat) (r : Request),
    let cls := s.linkClass l
    let n := s.damCount
    let running := s.mode = .hold ∨ s.mode = .coordinate ∨ s.mode = .service
    let k := (s.active.link l).dam
    let named := fun (i : Nat) =>
      if cls = .station then 1 ≤ k ∧ k ≤ n ∧ i < 8 ∧ i < (s.active.dam k).channelCount
      else i < 32 ∧ (s.active.damOf i).isSome = true
    let modeOk : Prop := match r with
      | .ping | .readConditions | .restart | .unknown _ => True
      | .query _ _ => s.mode = .configFault → cls = .service
      | .writeTable _ _ | .leaveService => s.mode = .service ∨ s.mode = .configFault
      | .takeLocal _ => s.mode = .hold ∨ s.mode = .coordinate
      | .resume | .enterService => s.mode = .hold
      | .hold => s.mode = .coordinate
      | .storeSettings => s.mode = .hold ∨ s.mode = .service
      | .release _ | .withdraw _ | .declareInflow _ _ | .setOpening _ _ | .releaseLocal _ | .clearFault _
      | .resetTrip _ | .bringUp _ | .setMask _ => running
    let classOk : Prop := match r with
      | .release _ => cls = .dispatch ∨ cls = .flood ∨ cls = .station
      | .declareInflow _ _ | .resume | .hold => cls = .flood ∨ cls = .service
      | .takeLocal _ | .setOpening _ _ => cls = .station
      | .releaseLocal _ | .clearFault _ | .resetTrip _ => cls = .station ∨ cls = .service
      | .bringUp _ | .enterService | .leaveService | .writeTable _ _ | .storeSettings | .restart => cls = .service
      | .ping | .withdraw _ | .query _ _ | .readConditions | .setMask _ | .unknown _ => True
    let codesOk : Prop := match r with
      | .release b => b.kind ≤ 1 ∧ b.flags < 4
      | .query j _ => 1 ≤ j ∧ j ≤ 8
      | .setMask m => m < 4096
      | .writeTable raw _ => (match raw with
        | .cascade _ p _ _ => p ≤ 1
        | .dam _ _ y _ _ => y ≤ 1
        | .channel kind _ _ _ _ _ _ _ _ _ _ m => kind ≤ 1 ∧ m ≤ 1
        | .link c _ _ _ => c ≤ 3
        | .precedence g h => g ≤ 1 ∧ h ≤ 1
        | .pool _ _ _ _ _ _ _ | .reach _ _ | .pass _ _ => True
        | .unknown _ => False)
      | .ping | .withdraw _ | .declareInflow _ _ | .takeLocal _ | .setOpening _ _ | .releaseLocal _ | .clearFault _
      | .resetTrip _ | .bringUp _ | .readConditions | .resume | .hold | .enterService | .leaveService
      | .storeSettings | .restart | .unknown _ => True
    let indexOk : Prop := match r with
      | .declareInflow p _ => 1 ≤ p ∧ p ≤ n
      | .takeLocal i | .setOpening i _ | .releaseLocal i | .clearFault i | .resetTrip i | .bringUp i => named i
      | .query j i =>
        (j = 1 → running ∧ i < 64) ∧ ((j = 2 ∨ j = 3) → 1 ≤ i ∧ i ≤ n) ∧ (j = 4 → named i) ∧
        (j = 5 → 1 ≤ i ∧ i < n) ∧ (j = 6 → 1 ≤ i ∧ i ≤ 4) ∧ ((j = 7 ∨ j = 8) → i = 0)
      | .writeTable raw i => (match raw with
        | .cascade _ _ _ _ | .precedence _ _ | .pass _ _ => i = 0
        | .dam _ _ _ _ _ | .pool _ _ _ _ _ _ _ => 1 ≤ i ∧ i ≤ 6
        | .reach _ _ => 1 ≤ i ∧ i ≤ 5
        | .channel _ _ _ _ _ _ _ _ _ _ _ _ => i ≤ 31
        | .link _ _ _ _ => 1 ≤ i ∧ i ≤ 4
        | .unknown _ => True)
      | .ping | .release _ | .withdraw _ | .readConditions | .setMask _ | .resume | .hold | .enterService
      | .leaveService | .storeSettings | .restart | .unknown _ => True
    (∀ code, r = .unknown code → s.refusal l r = some .badValue) ∧
    ((∀ code, r ≠ .unknown code) →
      (s.refusal l r = some .wrongMode ↔ ¬ modeOk) ∧
      (s.refusal l r = some .notPermitted ↔ modeOk ∧ ¬ classOk) ∧
      (s.refusal l r = some .badValue ↔ modeOk ∧ classOk ∧ ¬ codesOk) ∧
      (s.refusal l r = some .badIndex ↔ modeOk ∧ classOk ∧ codesOk ∧ ¬ indexOk) ∧
      (s.refusal l r = none ↔ modeOk ∧ classOk ∧ codesOk ∧ indexOk)) ∧
    ∀ i, named i → s.mapChannel l i = some (if cls = .station then (s.active.dam k).firstChannel + i else i))

/-- A frame on a link that is down first brings it up: its deadlines that are not reached are cleared, the orphan marks of its holds
are cleared, and a STATUS frame is sent if an unmasked kind is latched (a set mask bit masks its kind, log entry 5); then the frame
acts as on a link that was up. A deadline is reached once its end has been taken (log entry 19); the grants of the claims restored
come back to the published forecast from their former deadlines. -/
def Obligations.FrameOnADownLink : Prop :=
  ∀ (c : Instr) (s : State) (l tag : Nat) (r : Request), c.wf = true → requestOfCommand c = some (l, tag, r) →
    (s.linkAt l).up = false → (s.linkAt l).ok → s.claimsOk →
    ∃ u, exec c s = exec c u ∧ (∃ t, exec c s = .next t) ∧
      (u.linkAt l).up = true ∧ (u.linkAt l).buffer = (s.linkAt l).buffer ∧ (u.linkAt l).ok ∧
      (u.linkAt l).latched = (s.linkAt l).latched ∧ (u.linkAt l).mask = (s.linkAt l).mask ∧
      (if (s.linkAt l).latched &&& ~~~(s.linkAt l).mask = 0#12 then
        (u.linkAt l).sending = (s.linkAt l).sending ∧ (u.linkAt l).waiting = (s.linkAt l).waiting ∧
        (u.linkAt l).statusPending = (s.linkAt l).statusPending
      else
        (u.linkAt l).statusPending = true ∧
        ((∃ m p v w, (u.linkAt l).sending = some (.status m p v w)) ∨ .status ∈ (u.linkAt l).waiting)) ∧
      (∀ m, m ≠ l → u.linkAt m = s.linkAt m) ∧
      u.claims = s.claims.map (fun d =>
        if d.owner = l ∧ d.reached = false ∧ (∃ e, d.deadline = some e ∧ s.clock ≤ e) then
          { d with finish := none, deadline := none }
        else d) ∧
      (s.forecast = none → u.forecast = none) ∧
      (∀ f, s.forecast = some f →
        let back := fun (d : Claim) => d.owner = l ∧ d.reached = false ∧ d.deadline.isSome = true ∧
          s.clock ≤ d.deadline.getD 0
        let travel := fun (d : Claim) => (s.active.reach d.dam).travel
        ∃ g, u.forecast = some g ∧ f.changedBy g
          (fun j b => sumClaims s.claims fun d =>
            if back d then
              releaseOnF f s.damCount (travel d) d.dam d.grant (max d.start (d.deadline.getD 0))
                (f.start + 12 * f.bin) j b
            else 0)
          (fun j b => sumClaims s.claims fun d =>
            if back d then
              releaseOnP f d.dam d.grant (max d.start (d.deadline.getD 0)) (f.start + 12 * f.bin) j b
            else 0)) ∧
      (∀ c, u.chan c = if (s.chan c).holder = some l then { s.chan c with orphan := false } else s.chan c) ∧
      u = { s with claims := u.claims, forecast := u.forecast, channels := u.channels, links := u.links }

/-- Characters on a line: without a marker they leave a hunting receiver as it was; a frame not yet whole is kept; a whole frame
whose CRC does not match, and that holds no other marker, is discarded without a trace; and a whole frame of a request is that
request. That FRAME_DISCARDED carries any characters, valid frames among them, is the model's choice (log entry 16). -/
def Obligations.CharactersOfALine : Prop :=
  ∀ (s : State) (l : Nat), isLink l = true → (s.linkAt l).rx = [] →
    (∀ bytes, (0x5A : Byte) ∉ bytes → exec (.frameDiscarded l bytes) s = .next s) ∧
    (∀ n rest, 2 ≤ (n : Byte).toNat → rest.length < n.toNat + 2 →
      exec (.frameDiscarded l (0x5A :: n :: rest)) s =
        .next (s.setLink l { s.linkAt l with rx := 0x5A :: n :: rest })) ∧
    (∀ n body crc, 2 ≤ (n : Byte).toNat → body.length = n.toNat → crc.length = 2 →
      (0x5A : Byte) ∉ n :: (body ++ crc) → bigEndian crc ≠ (crc16 (n :: body)).toNat →
      exec (.frameDiscarded l (0x5A :: n :: (body ++ crc))) s = .next s) ∧
    ∀ c tag r kind body, c.wf = true → requestOfCommand c = some (l, tag, r) → kind < 256 → tag < 256 →
      body.length ≤ 253 → requestOf kind body = some r →
      exec (.frameDiscarded l (envelope kind tag body)) s = exec c s

/-- The expiry of a link timer takes the link down: no STATUS frame waits any more (log entry 7); its holds are marked orphaned, which
latches LOCAL_ORPHANED in the scope of its dam; all else of the link stands. Its open-ended claims are given the abandon deadline as their
end, and their grants leave the published forecast beyond it. Where the delay is 0 that end is reached at once: with no pass in flight
those claims leave the table, CLAIM_ENDED latches for the link, and the compensation entries of their units are lowered to the held grants
left, and the targets of the dams that lose a positive grant are recomputed; with one in flight they stay, their end marked as taken. No
other kind latches, on any link, but SPILL_SHORTFALL. Before the expiry the command has no effect (log entry 10). That the unit of a
TURBINE claim is one of its dam is taken as premise: every step keeps it. -/
def Obligations.LinkTimerExpiry : Prop :=
  ∀ (s : State) (l : Nat), isLink l = true → s.linksOk → s.claimsOk → s.plansOk → s.unitsOk →
    (s.due (s.linkAt l).timer = false → exec (.linkTimerExpiry l) s = .next s) ∧
    (s.due (s.linkAt l).timer = true →
      let delay := (s.active.link l).abandon
      let deadline := s.clock + delay
      let abandoned := fun (d : Claim) => d.owner = l ∧ d.finish = none
      ∃ t, exec (.linkTimerExpiry l) s = .next t ∧
      t.linkAt l = { s.linkAt l with
        up := false, timer := none, waiting := (s.linkAt l).waiting.filter (· ≠ .status)
        latched := (t.linkAt l).latched } ∧
      (∀ m, m ≠ l → (s.linkAt m).onlyLatches (t.linkAt m)) ∧ s.statusContents t ∧
      (0 < delay →
        t.claims = s.claims.map (fun d =>
          if abandoned d then { d with finish := some deadline, deadline := some deadline } else d) ∧
        t.plans = s.plans ∧
        (∀ c, t.chan c = if (s.chan c).holder = some l then { s.chan c with orphan := true } else s.chan c)) ∧
      (delay = 0 → s.setOk → ∀ d ∈ s.claims, abandoned d → d.grant ≠ 0 → t.aimed d.dam) ∧
      (delay = 0 → s.inFlight = true →
        t.claims = s.claims.map (fun d =>
          if abandoned d then { d with finish := some s.clock, deadline := some s.clock, reached := true } else d) ∧
        t.plans = s.plans) ∧
      (delay = 0 → s.inFlight = false →
        t.claims = s.claims.filter (fun d => ¬ abandoned d) ∧
        ∀ k ∈ sixNumbers, t.planAt k = { s.planAt k with
          entries := ((s.planAt k).entries.map fun e =>
            if s.claims.any (fun d => decide (abandoned d ∧ d.kind = .turbine e.unit ∧ d.dam = k ∧
                d.held.isSome = true)) = true then
              { e with flow := min e.flow (t.heldSum e.unit) }
            else e).filter (fun e => 0 < e.flow) }) ∧
      (s.forecast = none → t.forecast = none) ∧
      (∀ f, s.forecast = some f →
        let n := s.damCount
        let travel := fun (k : Nat) => (s.active.reach k).travel
        let fall := fun (k : Nat) =>
          (sumOver (t.planAt k).entries (·.flow) : Int) - sumOver (s.planAt k).entries (·.flow)
        ∃ g, t.forecast = some g ∧ f.changedBy g
          (fun j b =>
            (sumClaims s.claims fun d =>
              if abandoned d then
                -releaseOnF f n (travel d.dam) d.dam d.grant (max d.start deadline) (f.start + 12 * f.bin) j b
              else 0) +
            sumDams fun k => constantOnF f n (travel k) k (fall k) s.clock j b)
          (fun j b =>
            (sumClaims s.claims fun d =>
              if abandoned d then
                removalOnP f d.dam d.grant (max d.start deadline) (f.start + 12 * f.bin) j b
              else 0) +
            sumDams fun k => constantOnP f k (fall k) s.clock j b)) ∧
      (∀ c, (t.chan c).holder = (s.chan c).holder ∧ (t.chan c).localOpening = (s.chan c).localOpening ∧
        (t.chan c).setpoint = (s.chan c).setpoint ∧
        ((s.chan c).holder = some l → (t.chan c).orphan = true)) ∧
      (s.latchesExactly t [.spillShortfall] fun kind m =>
        (kind = .localOrphaned ∧ (∃ c ∈ channelNumbers, (s.chan c).holder = some l) ∧
          s.inScope (s.active.link l).dam m) ∨
        (kind = .claimEnded ∧ m = l ∧ delay = 0 ∧ s.inFlight = false ∧ ∃ d ∈ s.claims, abandoned d)) ∧
      t = { s with
        claims := t.claims, plans := t.plans, forecast := t.forecast, channels := t.channels, links := t.links })

/-- A line break empties the link's receiver, its request buffer and its entries in the intake queue and among the waiting
LEAVE_SERVICE; the link state and its conditions stand, but that dropping a formed READ_CONDITIONS reply clears the STATUS-pending
flag.
At the end of a frame the next waiting one begins: a STATUS frame with the contents of that moment, a BUSY reply, or the first
buffered request's reply, which leaves the buffer, lets a formed successor wait, and clears the STATUS-pending flag if it is that of
READ_CONDITIONS. That a request leaves the buffer, and the flag is cleared, as the reply's transmission begins is log entry 6; a BUSY
reply survives a break by log entry 7; a set mask bit masks its kind by log entry 5; and FRAME_SENT with nothing being sent has no
effect by log entry 10. -/
def Obligations.LineBreakAndFrameSent : Prop :=
  (∀ (s : State) (l : Nat), isLink l = true → (s.linkAt l).ok →
    ∃ t, exec (.lineBreak l) s = .next t ∧
      t = { s with
        intake := s.intake.filter (·.link ≠ l), leaving := s.leaving.filter (· ≠ l), links := t.links } ∧
      (∀ m, m ≠ l → t.linkAt m = s.linkAt m) ∧
      (let x := s.linkAt l
       let y := t.linkAt l
       y = { x with
        rx := [], buffer := [], sending := y.sending, waiting := y.waiting, statusPending := y.statusPending } ∧
       if x.buffer.any (fun e => e.kind == 0x8C && e.reply.isSome) then
        (if x.up = true ∧ x.latched &&& ~~~x.mask ≠ 0#12 then
          y.statusPending = true ∧
          ((∃ m p v w, y.sending = some (.status m p v w)) ∨ .status ∈ y.waiting)
        else y.statusPending = false ∧ y.sending = x.sending ∧ y.waiting = x.waiting.filter (· ≠ .first))
       else
        y.statusPending = x.statusPending ∧ y.sending = x.sending ∧ y.waiting = x.waiting.filter (· ≠ .first))) ∧
  (∀ (s : State) (l : Nat), isLink l = true → (s.linkAt l).ok →
    let x := s.linkAt l
    (x.sending = none → exec (.frameSent l) s = .next s) ∧
    (x.sending.isSome = true → ∃ t, exec (.frameSent l) s = .next t ∧ t = { s with links := t.links } ∧
      (∀ m, m ≠ l → t.linkAt m = s.linkAt m) ∧
      (let y := t.linkAt l
       (x.waiting = [] → y = { x with sending := none }) ∧
       (∀ rest, x.waiting = .status :: rest → y = { x with waiting := rest, sending := some (.status s.mode
          s.forecast.isSome x.latched (x.band &&& (s.txContext l).scope)) }) ∧
       (∀ kind tag rest, x.waiting = .busy kind tag :: rest →
          y = { x with waiting := rest, sending := some (.reply kind tag (.status .busy)) }) ∧
       (∀ rest, x.waiting = .first :: rest → ∃ e body after, x.buffer = e :: after ∧ e.reply = some body ∧
          y.sending = some (.reply e.kind e.tag body) ∧ y.buffer = after ∧
          (e.kind ≠ 0x8C → y = { x with
            sending := y.sending, buffer := after
            waiting := rest ++ (if y.firstFormed then [.first] else []) }) ∧
          (e.kind = 0x8C → (y.statusPending = true ↔ x.up = true ∧ x.latched &&& ~~~x.mask ≠ 0#12) ∧
            y.latched = x.latched ∧ y.mask = x.mask ∧ y.up = x.up)))))

/-- READ_CONDITIONS is answered with the latched set and the band flags of its scope, and empties both at that moment; the
STATUS-pending flag is cleared at once only when the reply goes out at once. SET_MASK replaces the mask, and sends a STATUS frame
for a latched kind it unmasks. A set mask bit masks its kind (log entry 5), and the flag is cleared as the reply's transmission
begins (log entry 6). -/
def Obligations.ConditionRequests : Prop :=
  ∀ (s : State) (l tag : Nat), isRequest l tag = true → s.takes l → (s.linkAt l).ok →
    (∃ t, exec (.readConditions l tag) s = .next t ∧ t = { s with links := t.links } ∧
      (∀ m, m ≠ l → t.linkAt m = s.linkAt m) ∧
      (s.linkAt l).supervised (t.linkAt l) s.clock (s.active.link l).timeout ∧
      (t.linkAt l).latched = 0#12 ∧ (t.linkAt l).band = 0#6 ∧
      (t.linkAt l).gives 0x8C tag
        (.conditions (s.linkAt l).latched ((s.linkAt l).band &&& (s.txContext l).scope)) ∧
      (if (s.linkAt l).buffer = [] ∧ (s.linkAt l).sending = none then (t.linkAt l).statusPending = false
        else (t.linkAt l).statusPending = (s.linkAt l).statusPending)) ∧
    ∀ mask, mask < 4096 → s.mode.running = true → ∃ t, exec (.setMask l tag mask) s = .next t ∧
      t = { s with links := t.links } ∧ (∀ m, m ≠ l → t.linkAt m = s.linkAt m) ∧
      (let x := s.linkAt l
       let y := t.linkAt l
       y.up = true ∧ y.mask = BitVec.ofNat 12 mask ∧ y.latched = x.latched ∧ y.band = x.band ∧
       y.gives 0x8D tag (.status .ok) ∧
       y.statusPending = (x.statusPending || decide (x.latched &&& ~~~(BitVec.ofNat 12 mask) ≠ 0#12)) ∧
       (x.statusPending = false → x.latched &&& ~~~(BitVec.ofNat 12 mask) ≠ 0#12 →
        (∃ m p v w, y.sending = some (.status m p v w)) ∨ .status ∈ y.waiting))

/-- Every QUERY is answered with the record as it stands when it is checked, and changes nothing but that the fault capture, once
read, is empty. That a link state record lists the channels held in ascending order is the model's (log entry 36).
Each record is spelled out: the claim's fields with its position in the list, counted from 0 (log entry 32); the forecast with
each F and P clamped and marked clipped where it lies outside its range; the plan with the held sum of each entry's unit; the
channel with the capacity at the dam's head; the reach with its accumulator brought up to the present second; the link with its
counts, the query itself among the buffered requests and as the last valid frame of its own link; the capture; and the
identity. -/
def Obligations.Queries : Prop :=
  ∀ (s : State) (l tag i : Nat), isRequest l tag = true → fits1 i = true →
    let reads := fun (c : Instr) (kind : Nat) (capture : Option Capture) (record : QueryRecord) =>
      s.admits l (.query kind i) → ∃ t, exec c s = .next t ∧
        t = { s with capture := capture, links := t.links } ∧ s.answers t l 0x8B tag (.record record)
    let clipped := fun (x : Int) (top : Nat) =>
      if x < 0 then (0, true) else if (top : Int) < x then (top, true) else (x.toNat, false)
    let cut := fun (x : Int) (top : Nat) =>
      if x < 0 then (0, false) else if (top : Int) < x then (top, true) else (x.toNat, false)
    let level := fun (k : Nat) =>
      let p := s.active.pool k
      let assumed := p.floor + (p.ceiling - p.floor) / 2
      match (s.gauge k).state with
      | .good => (s.gauge k).accepted.getD assumed
      | .lost => ((s.poolAt k).basis.map p.levelAt).getD assumed
      | .await => assumed
    let head := fun (k : Nat) =>
      level k - (if k = s.active.cascade.damCount then
          if s.active.cascade.tailPresent = true then (s.gauge 7).accepted.getD (s.active.dam k).tailFixed
          else (s.active.dam k).tailFixed
        else level (k + 1))
    reads (.queryClaim l tag i) 1 s.capture
      (match s.claimAt i with
      | none => .emptySlot i (get0 s.generations i)
      | some c => .claim
        { handle := c.handle, position := (s.claims.takeWhile fun d => slotOf d.handle ≠ i).length, owner := c.owner
          group := c.group, urgency := c.urgency, dam := c.dam, kind := c.kind, requested := c.requested
          minimum := c.minimum, start := c.start, finish := c.finish, deadline := c.deadline
          withdrawn := decide (c.withdrawn ≠ .clear), state := c.state, grant := c.grant, held := c.held }) ∧
    reads (.queryPoolForecast l tag i) 2 s.capture (.poolForecast
      { forecast := s.forecast.map fun f =>
          { start := f.start, bin := f.bin, storage := gen1 fun b => clipped ((f.pool i).F b) 4000000000
            peak := gen1 fun b => cut ((f.pool i).P b) 60000, rates := (s.poolAt i).rates }
        passState := s.pass.state, again := s.pass.again, declared := (s.poolAt i).declared.isSome
        basis := if (s.gauge i).state = .await then none else (s.poolAt i).basis
        passBasis := (s.poolAt i).passBasis.map fun q => (q.storage, q.time)
        gauge := (s.gauge i).state, reckoning := (s.poolAt i).reckoning }) ∧
    reads (.queryDamPlan l tag i) 3 s.capture (.damPlan
      { forced := (s.planAt i).forced
        entries := (s.planAt i).entries.map fun e =>
          (e.unit, e.flow, sumOver (s.claims.filter fun c => c.kind = .turbine e.unit) (·.held.getD 0))
        compensation := sumOver (s.planAt i).entries (·.flow)
        unmanaged := sumOver (s.active.damChannels i) fun c =>
          let x := s.chan c
          if x.state = .bringup ∨ x.state = .fault ∨ (x.inService = true ∧ x.holder.isSome = true) then x.actual else 0
        record := (s.planAt i).record }) ∧
    reads (.queryChannel l tag i) 4 s.capture
      (let c := s.channelOf l i
       let x := s.chan c
       let r := s.active.channel c
       let k := (s.active.damOf c).getD 0
       .channel
        { kind := r.kind, dam := k, state := x.state
          source := if x.state = .tripped then .trip else if x.holder.isSome = true then .localHold else .allocation
          holder := x.holder, target := x.target, targetFlow := x.targetFlow, setpoint := x.setpoint
          measured := x.measured, actual := x.actual, capacity := r.flow 1000 (head k), head := head k
          shortfall := x.shortfall, waitMark := x.waitMark, faultKind := x.faultKind
          tripInput := if r.kind = .turbine then some (s.tripLine c) else none
          localOpening := x.localOpening, orphan := x.orphan }) ∧
    reads (.queryReachQueue l tag i) 5 s.capture
      (let x := s.reachAt i
       let d := s.damAt i
       .reach
        { count := x.queue.length, coarsened := x.coarsened, travel := (s.active.reach i).travel
          deadband := (s.active.reach i).deadband, oldest := x.queue.head?, newest := x.queue.getLast?, cut := x.cut
          arrived := x.arrived, outflow := d.outflow, volume := d.volume + d.outflow * (s.clock - d.mark) }) ∧
    reads (.queryLinkState l tag i) 6 s.capture
      (let x := s.linkAt i
       let r := s.active.link i
       let owned := s.claims.filter fun c => c.owner = i
       .linkState
        { cls := r.cls, dam := if r.cls = .station then some r.dam else none, up := x.up
          lastFrame := if i = l then some s.clock else x.lastFrame, timeout := r.timeout, abandon := r.abandon
          buffered := if i = l then x.buffer.length + 1 else x.buffer.length
          queued := s.intake.countP fun e => e.link = i
          statusPending := x.statusPending, mask := x.mask, owned := owned.length
          abandoned := owned.countP fun c => c.deadline.isSome
          holds := (channelNumbers.filter fun c => (s.chan c).holder = some i).map fun c => (c, (s.chan c).orphan) }) ∧
    reads (.queryFaultCapture l tag i) 7 none (.capture s.capture) ∧
    reads (.queryIdentity l tag i) 8 s.capture (.identity
      { family := 0x41, part := 0x36, cause := s.resetCause, loadResult := s.loadResult, mode := s.mode
        writing := s.store.writing.isSome, result := s.store.result, damCount := s.active.cascade.damCount
        clock := s.clock })

/-! ### Local operation, bring-up and the way out of SERVICE -/

/-- TAKE_LOCAL: refused WRONG_STATE on a TRIPPED channel and on one in OFFLINE or BRINGUP that is not held, HELD_BY_OTHER on one
held by another link; OK without effect for its holder; and otherwise the hold takes effect with the setpoint as local opening, or
on a channel in FAULT that never had one with a local opening whose value is free (the model's choice, log entry 2: the manual
states none), the gate stops where it stands, the targets of its dam are recomputed, so that the share of a spill gate moves to the
other gates, and an early pass is requested. No condition latches but the kinds of targets and outflow.
A STATUS frame that the request raises is ready before its reply (log entry 6). -/
def Obligations.TakeLocal : Prop :=
  ∀ (s : State) (l tag i : Nat), (Instr.takeLocal l tag i).wf = true → s.admits l (.takeLocal i) → s.linksOk →
    s.channelsOk →
    let c := s.channelOf l i
    let x := s.chan c
    ∃ t, exec (.takeLocal l tag i) s = .next t ∧
      ((x.state = .tripped ∨ (x.holder = none ∧ (x.state = .offline ∨ x.state = .bringup))) →
        s.onlyAnswers t l 0x85 tag (.status .wrongState)) ∧
      (∀ h, x.holder = some h → h ≠ l → s.onlyAnswers t l 0x85 tag (.status .heldByOther)) ∧
      (x.holder = some l → s.onlyAnswers t l 0x85 tag (.status .ok)) ∧
      (x.holder = none → (x.inService = true ∨ x.state = .fault) →
        let y := t.chan c
        y.holder = some l ∧ y.orphan = false ∧ y.localOpening.isSome = true ∧
        (x.setpoint.isSome = true → y.localOpening = x.setpoint ∧ t.freeCount = s.freeCount) ∧
        y.target = y.localOpening ∧ y.setpoint = x.setpoint ∧ y.measured = x.measured ∧
        y.command = x.command ∧ y.commandCount = x.commandCount ∧
        y.state = (if x.state = .fault then .fault else .ready) ∧
        (∀ d, d ≠ c → (s.chan d).undisturbed (t.chan d)) ∧ (s.setOk → t.aimed (s.damOfChannel c)) ∧
        s.passRequested t ∧ s.answersAmid t l 0x85 tag (.status .ok) ∧
        (s.latchesExactly t flowKinds fun _ _ => False) ∧
        t = { s with
          freeCount := t.freeCount, pass := t.pass, pools := t.pools, channels := t.channels, dams := t.dams
          reaches := t.reaches, links := t.links })

/-- SET_OPENING: refused WRONG_STATE on a channel that is not held or is held in BRINGUP, HELD_BY_OTHER on one held by another link;
otherwise the local opening and the target take the value, at most 1000, with its flow, and no command is sent. -/
def Obligations.SetOpening : Prop :=
  ∀ (s : State) (l tag i o : Nat), (Instr.setOpening l tag i o).wf = true → s.admits l (.setOpening i o) →
    s.channelsOk →
    let c := s.channelOf l i
    let x := s.chan c
    let v := min 1000 o
    ∃ t, exec (.setOpening l tag i o) s = .next t ∧
      ((x.holder = none ∨ (x.holder = some l ∧ x.state = .bringup)) →
        s.onlyAnswers t l 0x86 tag (.status .wrongState)) ∧
      (∀ h, x.holder = some h → h ≠ l → s.onlyAnswers t l 0x86 tag (.status .heldByOther)) ∧
      (x.holder = some l → x.state ≠ .bringup →
        s.answers t l 0x86 tag (.status .ok) ∧ t = { s with channels := t.channels, links := t.links } ∧
        t.chan c = { x with
          localOpening := some v, target := some v, targetFlow := some ((s.active.channel c).flow v (s.chanHead c))
          shortfall := false
          state := if x.state = .fault then .fault else if x.setpoint = some v then .ready else .moving } ∧
        ∀ d, d ≠ c → t.chan d = s.chan d)

/-- RELEASE_LOCAL: refused WRONG_STATE on a channel that is not held and HELD_BY_OTHER to a STATION link that is not its holder;
otherwise the hold ends, the setpoint stands and no command is sent, a channel in FAULT or BRINGUP keeps its target, and the targets of
its dam are recomputed, a channel in READY or MOVING taking the allocation target; an early pass is requested. No condition latches but
the kinds of targets and outflow.
A STATUS frame that the request raises is ready before its reply (log entry 6). -/
def Obligations.ReleaseLocal : Prop :=
  ∀ (s : State) (l tag i : Nat), (Instr.releaseLocal l tag i).wf = true → s.admits l (.releaseLocal i) → s.linksOk →
    let c := s.channelOf l i
    let x := s.chan c
    ∃ t, exec (.releaseLocal l tag i) s = .next t ∧
      (x.holder = none → s.onlyAnswers t l 0x87 tag (.status .wrongState)) ∧
      (∀ h, x.holder = some h → h ≠ l → s.linkClass l ≠ .service →
        s.onlyAnswers t l 0x87 tag (.status .heldByOther)) ∧
      (∀ h, x.holder = some h → (h = l ∨ s.linkClass l = .service) →
        let y := t.chan c
        y.holder = none ∧ y.localOpening = none ∧ y.orphan = false ∧ y.setpoint = x.setpoint ∧
        y.command = x.command ∧ y.commandCount = x.commandCount ∧
        ((x.state = .fault ∨ x.state = .bringup) → y.target = x.target ∧ y.state = x.state) ∧
        (x.inService = true → y.inService = true) ∧
        (∀ d, d ≠ c → (s.chan d).undisturbed (t.chan d)) ∧ (s.setOk → t.aimed (s.damOfChannel c)) ∧
        s.passRequested t ∧ s.answersAmid t l 0x87 tag (.status .ok) ∧
        (s.latchesExactly t flowKinds fun _ _ => False) ∧
        t = { s with
          pass := t.pass, pools := t.pools, channels := t.channels, dams := t.dams, reaches := t.reaches
          links := t.links })

/-- CLEAR_FAULT on a channel in FAULT, and RESET_TRIP on a TRIPPED one whose input is released, start its bring-up: every timer
stops but the bring-up timer, setpoint, target, hold and actual flow stand, the target flow of a held channel following the head (log
entry 13), no command is sent, the targets of the dam are recomputed, and no condition latches but SPILL_SHORTFALL. On any other channel
both are refused WRONG_STATE.
BRING_UP on a channel waiting in BRINGUP puts it in service: one command with its setpoint, the ramp and feedback timers started,
an early pass requested, and the targets of the dam recomputed: the channel is READY where its target is its setpoint, and MOVING
otherwise; no condition latches but the kinds of targets and outflow. On any other channel it is refused WRONG_STATE.
A STATUS frame that the request raises is ready before its reply (log entry 6). -/
def Obligations.BringUpRequests : Prop :=
  (∀ (s : State) (l tag i : Nat), isRequest l tag = true → fits1 i = true → s.linksOk →
    let c := s.channelOf l i
    let x := s.chan c
    let starts := fun (t : State) =>
      t.chan c = { x with
        state := .bringup, faultKind := none, waitMark := false, rampTimer := none, trackTimer := none
        feedbackTimer := none, bringupTimer := some (s.clock + (s.active.channel c).bringupTimeout)
        targetFlow := if x.holder.isSome = true then
            some ((s.active.channel c).flow (x.localOpening.getD 0) (s.chanHead c))
          else x.targetFlow
        shortfall := if x.holder.isSome = true then false else x.shortfall } ∧
      (∀ d, d ≠ c → (s.chan d).undisturbed (t.chan d)) ∧ t.aimed (s.damOfChannel c) ∧
      (s.latchesExactly t [.spillShortfall] fun _ _ => False) ∧
      t = { s with channels := t.channels, links := t.links }
    (s.admits l (.clearFault i) → ∃ t, exec (.clearFault l tag i) s = .next t ∧
      if x.state = .fault then starts t ∧ s.answersAmid t l 0x88 tag (.status .ok)
      else s.onlyAnswers t l 0x88 tag (.status .wrongState)) ∧
    (s.admits l (.resetTrip i) → ∃ t, exec (.resetTrip l tag i) s = .next t ∧
      if x.state = .tripped ∧ s.tripLine c = false then starts t ∧ s.answersAmid t l 0x89 tag (.status .ok)
      else s.onlyAnswers t l 0x89 tag (.status .wrongState))) ∧
  (∀ (s : State) (l tag i : Nat), (Instr.bringUp l tag i).wf = true → s.admits l (.bringUp i) → s.linksOk →
    s.channelsOk →
    let c := s.channelOf l i
    let x := s.chan c
    ∃ t, exec (.bringUp l tag i) s = .next t ∧
      if x.state = .bringup ∧ x.waitMark = true then
        (t.chan c).inService = true ∧ (t.chan c).waitMark = false ∧ (t.chan c).setpoint = x.setpoint ∧
        ((t.chan c).state = .ready ↔ (t.chan c).target = x.setpoint) ∧ t.aimed (s.damOfChannel c) ∧
        (t.chan c).command = x.setpoint ∧ (t.chan c).commandCount = x.commandCount + 1 ∧
        (t.chan c).holder = x.holder ∧ (t.chan c).bringupTimer = none ∧
        (t.chan c).rampTimer = some (s.clock + (s.active.channel c).rampInterval) ∧
        (t.chan c).feedbackTimer = some (s.clock + (s.active.channel c).feedbackTimeout) ∧
        (∀ d, d ≠ c → (s.chan d).undisturbed (t.chan d)) ∧
        s.passRequested t ∧ s.answersAmid t l 0x8A tag (.status .ok) ∧
        (s.latchesExactly t flowKinds fun _ _ => False) ∧
        t = { s with
          pass := t.pass, pools := t.pools, channels := t.channels, dams := t.dams, reaches := t.reaches
          links := t.links }
      else s.onlyAnswers t l 0x8A tag (.status .wrongState))

/-- LEAVE_SERVICE: a working set that fails validation is answered BAD_TABLE without effect; with a pass in flight a valid one
waits for the publish; from CONFIG_FAULT, and from SERVICE with no pass in flight, the working set becomes active and the mode
goes to HOLD, with MODE_CHANGED on every link, every configured channel out of OFFLINE, a pass in flight, no claim that the new
set does not admit, and no hold of a link that is no longer its dam's; the STATUS frames that the conditions give are raised
before the reply (log entry 6). The pass is DEFERRED exactly where a configured pool is in AWAIT, and otherwise RUNNING from the present
second.
From CONFIG_FAULT the configured gauges start in AWAIT, the configured channels in bring-up, or TRIPPED where a unit's trip input
is asserted, the first pass is deferred and nothing of claims, plans, pools, reaches and forecast changes. From SERVICE with no
pass in flight the activation realigns the claims, the dam plans, the gauges, the published forecast and the band flags, and
reroutes the pools, the accumulators and the reaches; a channel that stays keeps its setpoint, measured position and command, its
flow formed again (in a bring-up after CLEAR_FAULT too: log entry 31), and one placed OFFLINE loses them and is brought up (that
its target flow and shortfall mark go too is log entry 30; that a unit it finds TRIPPED has target flow 0 and no shortfall mark is log
entry 13); a pass that starts at once then takes its bases. Beside MODE_CHANGED, CLAIM_ENDED latches for the owners of the claims removed,
UNIT_TRIP in the scope of the units brought up to a trip, and nothing else but the kinds of targets and outflow. The new travel times
in the forecast's changes, and a pool left alone where its record stands, are log entry 23. -/
def Obligations.LeaveService : Prop :=
  ∀ (s : State) (l tag : Nat), isRequest l tag = true → s.admits l .leaveService → s.linksOk → s.quietOk →
    s.channelsOk →
    ∃ t, exec (.leaveService l tag) s = .next t ∧
      (∀ j k, s.working.validate = some (j, k) → s.onlyAnswers t l 0x91 tag (.badTable j k)) ∧
      (s.working.validate = none → s.mode = .service → s.inFlight = true →
        t = { s with leaving := s.leaving ++ [l], links := t.links } ∧
        (∀ m, m ≠ l → t.linkAt m = s.linkAt m) ∧
        (t.linkAt l).buffer = (s.linkAt l).buffer ++ [{ kind := 0x91, tag := tag }] ∧
        (t.linkAt l).sending = (s.linkAt l).sending) ∧
      (s.working.validate = none → (s.mode = .configFault ∨ s.inFlight = false) →
        t.mode = .hold ∧ t.active = s.working ∧ t.working = s.working ∧ t.limits = s.working.limits ∧
        t.allLatched .modeChanged ∧ t.inFlight = true ∧ t.pass.timer = some (s.clock + s.working.pass.period) ∧
        (t.pass.state = .deferred ↔ t.poolAwaits) ∧
        (¬ t.poolAwaits → t.pass.state = .running ∧ t.pass.stage = .routing ∧ t.pass.forecast.start = s.clock ∧
          t.pass.forecast.bin = s.working.pass.binLength) ∧
        s.answersAfter t Link.latchesStatus l 0x91 tag (.status .ok) ∧
        (∀ c, (s.working.damOf c).isSome = true → c < 32 → (t.chan c).state ≠ .offline) ∧
        (∀ c, (s.working.damOf c).isSome = false → (t.chan c).state = .offline ∨ (s.active.damOf c).isSome = false) ∧
        (∀ d ∈ t.claims, d.removedBy s.active s.working = false) ∧
        (∀ c h, c < 32 → (s.working.damOf c).isSome = true → (t.chan c).holder = some h →
          (s.working.link h).cls = .station ∧ (s.working.link h).dam = (s.working.damOf c).getD 0) ∧
        t.loadResult = s.loadResult ∧ t.resetCause = s.resetCause ∧ t.store = s.store ∧ t.clock = s.clock ∧
        t.pending = s.pending ∧ t.intake = s.intake ∧ t.capture = s.capture ∧ t.tripLines = s.tripLines ∧
        t.generations = s.generations) ∧
      (s.working.validate = none → s.mode = .configFault →
        t.pass.state = .deferred ∧
        (∀ g, t.gauge g =
          if t.gaugeConfigured g = true then { timer := some (s.clock + t.gaugeTimeout g) } else {}) ∧
        (∀ c ∈ channelNumbers,
          let r := s.working.channel c
          if (s.working.damOf c).isSome = true then
            if r.kind = .turbine ∧ s.tripLine c = true then (t.chan c).state = .tripped
            else (t.chan c).state = .bringup ∧ (t.chan c).bringupTimer = some (s.clock + r.bringupTimeout)
          else t.chan c = s.chan c) ∧
        (s.latchesExactly t [] fun kind m => kind = .modeChanged ∨
          (kind = .unitTrip ∧ ∃ u ∈ channelNumbers, ∃ k, s.working.damOf u = some k ∧
            (s.working.channel u).kind = .turbine ∧ s.tripLine u = true ∧ t.inScope k m)) ∧
        t = { s with
          mode := .hold, active := s.working, limits := s.working.limits, gauges := t.gauges, pass := t.pass
          channels := t.channels, links := t.links }) ∧
      (s.working.validate = none → s.mode = .service → s.inFlight = false → s.setOk → s.unitsOk → s.claimsOk →
        s.plansOk →
        s.realigned t ∧ s.rechanneled t ∧
        (t.pass.state = .deferred → s.rerouted t) ∧
        (t.pass.state = .running → ∀ k ∈ sixNumbers,
          (s.working.hasDam k = false → t.poolAt k = {} ∧ t.damAt k = {}) ∧
          (s.working.hasDam k = true →
            (t.damAt k).volume = 0 ∧ (t.damAt k).mark = s.clock ∧
            ((s.gauge k).state ≠ .lost → (t.poolAt k).basis =
              some ((s.poolRealigned k).basis.getD (s.working.pool k).assumedStorage)) ∧
            t.poolAt k = { s.poolRealigned k with
              basis := (t.poolAt k).basis, declared := none
              passBasis := some
                { storage := (t.poolAt k).basis.getD 0, time := s.clock, bin := s.working.pass.binLength } }) ∧
          (s.working.hasReach k = false → t.reachAt k = {}) ∧
          (s.working.hasReach k = true → (s.reachAt k).queue = [] → t.reachAt k = s.reachAt k) ∧
          (s.working.hasReach k = true → (s.reachAt k).queue ≠ [] →
            (t.reachAt k).arrived = 0 ∧ (t.reachAt k).cut = s.clock)))
end

