-- ==== Sys2Proof/Laws/Tab.lean ====
section
/-! SUPPORT. Reading a table after writing it. -/

namespace Sys2Proof.Machine

section
variable {n : Nat} {α : Type} [Inhabited α]

theorem get0_put0 (t : Tab n α) (k j : Nat) (a : α) :
    get0 (put0 t k a) j = if j = k ∧ k < n then a else get0 t j := by
  unfold get0 put0
  rw [Vector.getElem?_setIfInBounds]
  by_cases h : k = j
  · subst h
    by_cases hk : k < n <;> simp [hk]
  · have h' : j ≠ k := fun e => h e.symm
    simp [h, h']

@[simp] theorem get0_put0_same (t : Tab n α) (k : Nat) (a : α) (h : k < n) : get0 (put0 t k a) k = a := by
  simp [get0_put0, h]

@[simp] theorem get0_put0_ne (t : Tab n α) {k j : Nat} (a : α) (h : j ≠ k) : get0 (put0 t k a) j = get0 t j := by
  simp [get0_put0, h]

theorem get0_gen0 (f : Nat → α) (j : Nat) : get0 (gen0 f : Tab n α) j = if j < n then f j else default := by
  unfold get0 gen0
  by_cases h : j < n <;> simp [h]

@[simp] theorem get0_gen0_lt (f : Nat → α) {j : Nat} (h : j < n) : get0 (gen0 f : Tab n α) j = f j := by
  simp [get0_gen0, h]

theorem get0_ge (t : Tab n α) {j : Nat} (h : n ≤ j) : get0 t j = default := by
  simp [get0, h]

theorem get1_put1 (t : Tab n α) (k j : Nat) (a : α) :
    get1 (put1 t k a) j = if j = k ∧ 1 ≤ k ∧ k ≤ n then a else get1 t j := by
  cases k with
  | zero => cases j <;> simp [put1]
  | succ k =>
    cases j with
    | zero => simp [get1]
    | succ j =>
      simp only [get1, put1, get0_put0]
      by_cases h : j = k
      · subst h
        by_cases hk : j < n
        · rw [if_pos ⟨rfl, hk⟩, if_pos ⟨rfl, by omega, by omega⟩]
        · rw [if_neg (by omega), if_neg (by omega)]
      · rw [if_neg (by omega), if_neg (by omega)]

@[simp] theorem get1_put1_same (t : Tab n α) (k : Nat) (a : α) (h : 1 ≤ k) (h' : k ≤ n) :
    get1 (put1 t k a) k = a := by
  simp [get1_put1, h, h']

@[simp] theorem get1_put1_ne (t : Tab n α) {k j : Nat} (a : α) (h : j ≠ k) : get1 (put1 t k a) j = get1 t j := by
  simp [get1_put1, h]

theorem get1_gen1 (f : Nat → α) (j : Nat) :
    get1 (gen1 f : Tab n α) j = if 1 ≤ j ∧ j ≤ n then f j else default := by
  cases j with
  | zero => simp [get1]
  | succ j =>
    simp only [get1, gen1, get0_gen0]
    by_cases h : j < n
    · rw [if_pos h, if_pos ⟨by omega, by omega⟩]
    · rw [if_neg h, if_neg (by omega)]

@[simp] theorem get1_gen1_in (f : Nat → α) {j : Nat} (h : 1 ≤ j) (h' : j ≤ n) :
    get1 (gen1 f : Tab n α) j = f j := by
  simp [get1_gen1, h, h']

/-- Two tables with the same records are equal. -/
theorem tab_ext0 (t u : Tab n α) (h : ∀ j < n, get0 t j = get0 u j) : t = u := by
  ext i hi
  simpa [get0, hi] using h i hi

theorem tab_ext1 (t u : Tab n α) (h : ∀ j, 1 ≤ j → j ≤ n → get1 t j = get1 u j) : t = u :=
  tab_ext0 t u fun j hj => by simpa [get1] using h (j + 1) (by omega) (by omega)

/-- Writing back what a table reads as changes nothing. -/
@[simp] theorem put0_get0 (t : Tab n α) (k : Nat) : put0 t k (get0 t k) = t :=
  tab_ext0 _ _ fun j _ => by
    rw [get0_put0]
    split
    · next h => rw [h.1]
    · rfl

@[simp] theorem put1_get1 (t : Tab n α) (k : Nat) : put1 t k (get1 t k) = t := by
  cases k with
  | zero => rfl
  | succ k => exact put0_get0 t k

/-- A later write to the same place stands. -/
@[simp] theorem put0_put0 (t : Tab n α) (k : Nat) (a b : α) : put0 (put0 t k a) k b = put0 t k b :=
  tab_ext0 _ _ fun j _ => by
    simp only [get0_put0]
    split <;> rfl

@[simp] theorem put1_put1 (t : Tab n α) (k : Nat) (a b : α) : put1 (put1 t k a) k b = put1 t k b := by
  cases k with
  | zero => rfl
  | succ k => exact put0_put0 t k a b

end

end Sys2Proof.Machine
end

