-- ==== Sys2Proof/Laws/State.lean ====
section
/-! SUPPORT. What the plain updates of State leave: one lemma per field per update, and what the written record reads as. -/

namespace Sys2Proof.Machine

variable (s : State)

/-! ### setGauge -/

@[simp] theorem setGauge_pending (k : Nat) (x : Gauge) : (s.setGauge k x).pending = s.pending := rfl
@[simp] theorem setGauge_freeCount (k : Nat) (x : Gauge) : (s.setGauge k x).freeCount = s.freeCount := rfl
@[simp] theorem setGauge_clock (k : Nat) (x : Gauge) : (s.setGauge k x).clock = s.clock := rfl
@[simp] theorem setGauge_mode (k : Nat) (x : Gauge) : (s.setGauge k x).mode = s.mode := rfl
@[simp] theorem setGauge_resetCause (k : Nat) (x : Gauge) : (s.setGauge k x).resetCause = s.resetCause := rfl
@[simp] theorem setGauge_loadResult (k : Nat) (x : Gauge) : (s.setGauge k x).loadResult = s.loadResult := rfl
@[simp] theorem setGauge_active (k : Nat) (x : Gauge) : (s.setGauge k x).active = s.active := rfl
@[simp] theorem setGauge_working (k : Nat) (x : Gauge) : (s.setGauge k x).working = s.working := rfl
@[simp] theorem setGauge_limits (k : Nat) (x : Gauge) : (s.setGauge k x).limits = s.limits := rfl
@[simp] theorem setGauge_store (k : Nat) (x : Gauge) : (s.setGauge k x).store = s.store := rfl
@[simp] theorem setGauge_pools (k : Nat) (x : Gauge) : (s.setGauge k x).pools = s.pools := rfl
@[simp] theorem setGauge_pass (k : Nat) (x : Gauge) : (s.setGauge k x).pass = s.pass := rfl
@[simp] theorem setGauge_forecast (k : Nat) (x : Gauge) : (s.setGauge k x).forecast = s.forecast := rfl
@[simp] theorem setGauge_dams (k : Nat) (x : Gauge) : (s.setGauge k x).dams = s.dams := rfl
@[simp] theorem setGauge_reaches (k : Nat) (x : Gauge) : (s.setGauge k x).reaches = s.reaches := rfl
@[simp] theorem setGauge_claims (k : Nat) (x : Gauge) : (s.setGauge k x).claims = s.claims := rfl
@[simp] theorem setGauge_generations (k : Nat) (x : Gauge) : (s.setGauge k x).generations = s.generations := rfl
@[simp] theorem setGauge_intake (k : Nat) (x : Gauge) : (s.setGauge k x).intake = s.intake := rfl
@[simp] theorem setGauge_leaving (k : Nat) (x : Gauge) : (s.setGauge k x).leaving = s.leaving := rfl
@[simp] theorem setGauge_plans (k : Nat) (x : Gauge) : (s.setGauge k x).plans = s.plans := rfl
@[simp] theorem setGauge_channels (k : Nat) (x : Gauge) : (s.setGauge k x).channels = s.channels := rfl
@[simp] theorem setGauge_tripLines (k : Nat) (x : Gauge) : (s.setGauge k x).tripLines = s.tripLines := rfl
@[simp] theorem setGauge_links (k : Nat) (x : Gauge) : (s.setGauge k x).links = s.links := rfl
@[simp] theorem setGauge_capture (k : Nat) (x : Gauge) : (s.setGauge k x).capture = s.capture := rfl
@[simp] theorem setGauge_poolAt (k : Nat) (x : Gauge) (j : Nat) : (s.setGauge k x).poolAt j = s.poolAt j := rfl
@[simp] theorem setGauge_limitsAt (k : Nat) (x : Gauge) (j : Nat) : (s.setGauge k x).limitsAt j = s.limitsAt j := rfl
@[simp] theorem setGauge_damAt (k : Nat) (x : Gauge) (j : Nat) : (s.setGauge k x).damAt j = s.damAt j := rfl
@[simp] theorem setGauge_reachAt (k : Nat) (x : Gauge) (j : Nat) : (s.setGauge k x).reachAt j = s.reachAt j := rfl
@[simp] theorem setGauge_planAt (k : Nat) (x : Gauge) (j : Nat) : (s.setGauge k x).planAt j = s.planAt j := rfl
@[simp] theorem setGauge_chan (k : Nat) (x : Gauge) (j : Nat) : (s.setGauge k x).chan j = s.chan j := rfl
@[simp] theorem setGauge_linkAt (k : Nat) (x : Gauge) (j : Nat) : (s.setGauge k x).linkAt j = s.linkAt j := rfl
@[simp] theorem setGauge_tripLine (k : Nat) (x : Gauge) (j : Nat) : (s.setGauge k x).tripLine j = s.tripLine j := rfl

/-! ### setPool -/

@[simp] theorem setPool_pending (k : Nat) (x : Pool) : (s.setPool k x).pending = s.pending := rfl
@[simp] theorem setPool_freeCount (k : Nat) (x : Pool) : (s.setPool k x).freeCount = s.freeCount := rfl
@[simp] theorem setPool_clock (k : Nat) (x : Pool) : (s.setPool k x).clock = s.clock := rfl
@[simp] theorem setPool_mode (k : Nat) (x : Pool) : (s.setPool k x).mode = s.mode := rfl
@[simp] theorem setPool_resetCause (k : Nat) (x : Pool) : (s.setPool k x).resetCause = s.resetCause := rfl
@[simp] theorem setPool_loadResult (k : Nat) (x : Pool) : (s.setPool k x).loadResult = s.loadResult := rfl
@[simp] theorem setPool_active (k : Nat) (x : Pool) : (s.setPool k x).active = s.active := rfl
@[simp] theorem setPool_working (k : Nat) (x : Pool) : (s.setPool k x).working = s.working := rfl
@[simp] theorem setPool_limits (k : Nat) (x : Pool) : (s.setPool k x).limits = s.limits := rfl
@[simp] theorem setPool_store (k : Nat) (x : Pool) : (s.setPool k x).store = s.store := rfl
@[simp] theorem setPool_gauges (k : Nat) (x : Pool) : (s.setPool k x).gauges = s.gauges := rfl
@[simp] theorem setPool_pass (k : Nat) (x : Pool) : (s.setPool k x).pass = s.pass := rfl
@[simp] theorem setPool_forecast (k : Nat) (x : Pool) : (s.setPool k x).forecast = s.forecast := rfl
@[simp] theorem setPool_dams (k : Nat) (x : Pool) : (s.setPool k x).dams = s.dams := rfl
@[simp] theorem setPool_reaches (k : Nat) (x : Pool) : (s.setPool k x).reaches = s.reaches := rfl
@[simp] theorem setPool_claims (k : Nat) (x : Pool) : (s.setPool k x).claims = s.claims := rfl
@[simp] theorem setPool_generations (k : Nat) (x : Pool) : (s.setPool k x).generations = s.generations := rfl
@[simp] theorem setPool_intake (k : Nat) (x : Pool) : (s.setPool k x).intake = s.intake := rfl
@[simp] theorem setPool_leaving (k : Nat) (x : Pool) : (s.setPool k x).leaving = s.leaving := rfl
@[simp] theorem setPool_plans (k : Nat) (x : Pool) : (s.setPool k x).plans = s.plans := rfl
@[simp] theorem setPool_channels (k : Nat) (x : Pool) : (s.setPool k x).channels = s.channels := rfl
@[simp] theorem setPool_tripLines (k : Nat) (x : Pool) : (s.setPool k x).tripLines = s.tripLines := rfl
@[simp] theorem setPool_links (k : Nat) (x : Pool) : (s.setPool k x).links = s.links := rfl
@[simp] theorem setPool_capture (k : Nat) (x : Pool) : (s.setPool k x).capture = s.capture := rfl
@[simp] theorem setPool_gauge (k : Nat) (x : Pool) (j : Nat) : (s.setPool k x).gauge j = s.gauge j := rfl
@[simp] theorem setPool_limitsAt (k : Nat) (x : Pool) (j : Nat) : (s.setPool k x).limitsAt j = s.limitsAt j := rfl
@[simp] theorem setPool_damAt (k : Nat) (x : Pool) (j : Nat) : (s.setPool k x).damAt j = s.damAt j := rfl
@[simp] theorem setPool_reachAt (k : Nat) (x : Pool) (j : Nat) : (s.setPool k x).reachAt j = s.reachAt j := rfl
@[simp] theorem setPool_planAt (k : Nat) (x : Pool) (j : Nat) : (s.setPool k x).planAt j = s.planAt j := rfl
@[simp] theorem setPool_chan (k : Nat) (x : Pool) (j : Nat) : (s.setPool k x).chan j = s.chan j := rfl
@[simp] theorem setPool_linkAt (k : Nat) (x : Pool) (j : Nat) : (s.setPool k x).linkAt j = s.linkAt j := rfl
@[simp] theorem setPool_tripLine (k : Nat) (x : Pool) (j : Nat) : (s.setPool k x).tripLine j = s.tripLine j := rfl

/-! ### setDam -/

@[simp] theorem setDam_pending (k : Nat) (x : DamFlow) : (s.setDam k x).pending = s.pending := rfl
@[simp] theorem setDam_freeCount (k : Nat) (x : DamFlow) : (s.setDam k x).freeCount = s.freeCount := rfl
@[simp] theorem setDam_clock (k : Nat) (x : DamFlow) : (s.setDam k x).clock = s.clock := rfl
@[simp] theorem setDam_mode (k : Nat) (x : DamFlow) : (s.setDam k x).mode = s.mode := rfl
@[simp] theorem setDam_resetCause (k : Nat) (x : DamFlow) : (s.setDam k x).resetCause = s.resetCause := rfl
@[simp] theorem setDam_loadResult (k : Nat) (x : DamFlow) : (s.setDam k x).loadResult = s.loadResult := rfl
@[simp] theorem setDam_active (k : Nat) (x : DamFlow) : (s.setDam k x).active = s.active := rfl
@[simp] theorem setDam_working (k : Nat) (x : DamFlow) : (s.setDam k x).working = s.working := rfl
@[simp] theorem setDam_limits (k : Nat) (x : DamFlow) : (s.setDam k x).limits = s.limits := rfl
@[simp] theorem setDam_store (k : Nat) (x : DamFlow) : (s.setDam k x).store = s.store := rfl
@[simp] theorem setDam_gauges (k : Nat) (x : DamFlow) : (s.setDam k x).gauges = s.gauges := rfl
@[simp] theorem setDam_pools (k : Nat) (x : DamFlow) : (s.setDam k x).pools = s.pools := rfl
@[simp] theorem setDam_pass (k : Nat) (x : DamFlow) : (s.setDam k x).pass = s.pass := rfl
@[simp] theorem setDam_forecast (k : Nat) (x : DamFlow) : (s.setDam k x).forecast = s.forecast := rfl
@[simp] theorem setDam_reaches (k : Nat) (x : DamFlow) : (s.setDam k x).reaches = s.reaches := rfl
@[simp] theorem setDam_claims (k : Nat) (x : DamFlow) : (s.setDam k x).claims = s.claims := rfl
@[simp] theorem setDam_generations (k : Nat) (x : DamFlow) : (s.setDam k x).generations = s.generations := rfl
@[simp] theorem setDam_intake (k : Nat) (x : DamFlow) : (s.setDam k x).intake = s.intake := rfl
@[simp] theorem setDam_leaving (k : Nat) (x : DamFlow) : (s.setDam k x).leaving = s.leaving := rfl
@[simp] theorem setDam_plans (k : Nat) (x : DamFlow) : (s.setDam k x).plans = s.plans := rfl
@[simp] theorem setDam_channels (k : Nat) (x : DamFlow) : (s.setDam k x).channels = s.channels := rfl
@[simp] theorem setDam_tripLines (k : Nat) (x : DamFlow) : (s.setDam k x).tripLines = s.tripLines := rfl
@[simp] theorem setDam_links (k : Nat) (x : DamFlow) : (s.setDam k x).links = s.links := rfl
@[simp] theorem setDam_capture (k : Nat) (x : DamFlow) : (s.setDam k x).capture = s.capture := rfl
@[simp] theorem setDam_gauge (k : Nat) (x : DamFlow) (j : Nat) : (s.setDam k x).gauge j = s.gauge j := rfl
@[simp] theorem setDam_poolAt (k : Nat) (x : DamFlow) (j : Nat) : (s.setDam k x).poolAt j = s.poolAt j := rfl
@[simp] theorem setDam_limitsAt (k : Nat) (x : DamFlow) (j : Nat) : (s.setDam k x).limitsAt j = s.limitsAt j := rfl
@[simp] theorem setDam_reachAt (k : Nat) (x : DamFlow) (j : Nat) : (s.setDam k x).reachAt j = s.reachAt j := rfl
@[simp] theorem setDam_planAt (k : Nat) (x : DamFlow) (j : Nat) : (s.setDam k x).planAt j = s.planAt j := rfl
@[simp] theorem setDam_chan (k : Nat) (x : DamFlow) (j : Nat) : (s.setDam k x).chan j = s.chan j := rfl
@[simp] theorem setDam_linkAt (k : Nat) (x : DamFlow) (j : Nat) : (s.setDam k x).linkAt j = s.linkAt j := rfl
@[simp] theorem setDam_tripLine (k : Nat) (x : DamFlow) (j : Nat) : (s.setDam k x).tripLine j = s.tripLine j := rfl

/-! ### setReach -/

@[simp] theorem setReach_pending (k : Nat) (x : Reach) : (s.setReach k x).pending = s.pending := rfl
@[simp] theorem setReach_freeCount (k : Nat) (x : Reach) : (s.setReach k x).freeCount = s.freeCount := rfl
@[simp] theorem setReach_clock (k : Nat) (x : Reach) : (s.setReach k x).clock = s.clock := rfl
@[simp] theorem setReach_mode (k : Nat) (x : Reach) : (s.setReach k x).mode = s.mode := rfl
@[simp] theorem setReach_resetCause (k : Nat) (x : Reach) : (s.setReach k x).resetCause = s.resetCause := rfl
@[simp] theorem setReach_loadResult (k : Nat) (x : Reach) : (s.setReach k x).loadResult = s.loadResult := rfl
@[simp] theorem setReach_active (k : Nat) (x : Reach) : (s.setReach k x).active = s.active := rfl
@[simp] theorem setReach_working (k : Nat) (x : Reach) : (s.setReach k x).working = s.working := rfl
@[simp] theorem setReach_limits (k : Nat) (x : Reach) : (s.setReach k x).limits = s.limits := rfl
@[simp] theorem setReach_store (k : Nat) (x : Reach) : (s.setReach k x).store = s.store := rfl
@[simp] theorem setReach_gauges (k : Nat) (x : Reach) : (s.setReach k x).gauges = s.gauges := rfl
@[simp] theorem setReach_pools (k : Nat) (x : Reach) : (s.setReach k x).pools = s.pools := rfl
@[simp] theorem setReach_pass (k : Nat) (x : Reach) : (s.setReach k x).pass = s.pass := rfl
@[simp] theorem setReach_forecast (k : Nat) (x : Reach) : (s.setReach k x).forecast = s.forecast := rfl
@[simp] theorem setReach_dams (k : Nat) (x : Reach) : (s.setReach k x).dams = s.dams := rfl
@[simp] theorem setReach_claims (k : Nat) (x : Reach) : (s.setReach k x).claims = s.claims := rfl
@[simp] theorem setReach_generations (k : Nat) (x : Reach) : (s.setReach k x).generations = s.generations := rfl
@[simp] theorem setReach_intake (k : Nat) (x : Reach) : (s.setReach k x).intake = s.intake := rfl
@[simp] theorem setReach_leaving (k : Nat) (x : Reach) : (s.setReach k x).leaving = s.leaving := rfl
@[simp] theorem setReach_plans (k : Nat) (x : Reach) : (s.setReach k x).plans = s.plans := rfl
@[simp] theorem setReach_channels (k : Nat) (x : Reach) : (s.setReach k x).channels = s.channels := rfl
@[simp] theorem setReach_tripLines (k : Nat) (x : Reach) : (s.setReach k x).tripLines = s.tripLines := rfl
@[simp] theorem setReach_links (k : Nat) (x : Reach) : (s.setReach k x).links = s.links := rfl
@[simp] theorem setReach_capture (k : Nat) (x : Reach) : (s.setReach k x).capture = s.capture := rfl
@[simp] theorem setReach_gauge (k : Nat) (x : Reach) (j : Nat) : (s.setReach k x).gauge j = s.gauge j := rfl
@[simp] theorem setReach_poolAt (k : Nat) (x : Reach) (j : Nat) : (s.setReach k x).poolAt j = s.poolAt j := rfl
@[simp] theorem setReach_limitsAt (k : Nat) (x : Reach) (j : Nat) : (s.setReach k x).limitsAt j = s.limitsAt j := rfl
@[simp] theorem setReach_damAt (k : Nat) (x : Reach) (j : Nat) : (s.setReach k x).damAt j = s.damAt j := rfl
@[simp] theorem setReach_planAt (k : Nat) (x : Reach) (j : Nat) : (s.setReach k x).planAt j = s.planAt j := rfl
@[simp] theorem setReach_chan (k : Nat) (x : Reach) (j : Nat) : (s.setReach k x).chan j = s.chan j := rfl
@[simp] theorem setReach_linkAt (k : Nat) (x : Reach) (j : Nat) : (s.setReach k x).linkAt j = s.linkAt j := rfl
@[simp] theorem setReach_tripLine (k : Nat) (x : Reach) (j : Nat) : (s.setReach k x).tripLine j = s.tripLine j := rfl

/-! ### setPlan -/

@[simp] theorem setPlan_pending (k : Nat) (x : DamPlan) : (s.setPlan k x).pending = s.pending := rfl
@[simp] theorem setPlan_freeCount (k : Nat) (x : DamPlan) : (s.setPlan k x).freeCount = s.freeCount := rfl
@[simp] theorem setPlan_clock (k : Nat) (x : DamPlan) : (s.setPlan k x).clock = s.clock := rfl
@[simp] theorem setPlan_mode (k : Nat) (x : DamPlan) : (s.setPlan k x).mode = s.mode := rfl
@[simp] theorem setPlan_resetCause (k : Nat) (x : DamPlan) : (s.setPlan k x).resetCause = s.resetCause := rfl
@[simp] theorem setPlan_loadResult (k : Nat) (x : DamPlan) : (s.setPlan k x).loadResult = s.loadResult := rfl
@[simp] theorem setPlan_active (k : Nat) (x : DamPlan) : (s.setPlan k x).active = s.active := rfl
@[simp] theorem setPlan_working (k : Nat) (x : DamPlan) : (s.setPlan k x).working = s.working := rfl
@[simp] theorem setPlan_limits (k : Nat) (x : DamPlan) : (s.setPlan k x).limits = s.limits := rfl
@[simp] theorem setPlan_store (k : Nat) (x : DamPlan) : (s.setPlan k x).store = s.store := rfl
@[simp] theorem setPlan_gauges (k : Nat) (x : DamPlan) : (s.setPlan k x).gauges = s.gauges := rfl
@[simp] theorem setPlan_pools (k : Nat) (x : DamPlan) : (s.setPlan k x).pools = s.pools := rfl
@[simp] theorem setPlan_pass (k : Nat) (x : DamPlan) : (s.setPlan k x).pass = s.pass := rfl
@[simp] theorem setPlan_forecast (k : Nat) (x : DamPlan) : (s.setPlan k x).forecast = s.forecast := rfl
@[simp] theorem setPlan_dams (k : Nat) (x : DamPlan) : (s.setPlan k x).dams = s.dams := rfl
@[simp] theorem setPlan_reaches (k : Nat) (x : DamPlan) : (s.setPlan k x).reaches = s.reaches := rfl
@[simp] theorem setPlan_claims (k : Nat) (x : DamPlan) : (s.setPlan k x).claims = s.claims := rfl
@[simp] theorem setPlan_generations (k : Nat) (x : DamPlan) : (s.setPlan k x).generations = s.generations := rfl
@[simp] theorem setPlan_intake (k : Nat) (x : DamPlan) : (s.setPlan k x).intake = s.intake := rfl
@[simp] theorem setPlan_leaving (k : Nat) (x : DamPlan) : (s.setPlan k x).leaving = s.leaving := rfl
@[simp] theorem setPlan_channels (k : Nat) (x : DamPlan) : (s.setPlan k x).channels = s.channels := rfl
@[simp] theorem setPlan_tripLines (k : Nat) (x : DamPlan) : (s.setPlan k x).tripLines = s.tripLines := rfl
@[simp] theorem setPlan_links (k : Nat) (x : DamPlan) : (s.setPlan k x).links = s.links := rfl
@[simp] theorem setPlan_capture (k : Nat) (x : DamPlan) : (s.setPlan k x).capture = s.capture := rfl
@[simp] theorem setPlan_gauge (k : Nat) (x : DamPlan) (j : Nat) : (s.setPlan k x).gauge j = s.gauge j := rfl
@[simp] theorem setPlan_poolAt (k : Nat) (x : DamPlan) (j : Nat) : (s.setPlan k x).poolAt j = s.poolAt j := rfl
@[simp] theorem setPlan_limitsAt (k : Nat) (x : DamPlan) (j : Nat) : (s.setPlan k x).limitsAt j = s.limitsAt j := rfl
@[simp] theorem setPlan_damAt (k : Nat) (x : DamPlan) (j : Nat) : (s.setPlan k x).damAt j = s.damAt j := rfl
@[simp] theorem setPlan_reachAt (k : Nat) (x : DamPlan) (j : Nat) : (s.setPlan k x).reachAt j = s.reachAt j := rfl
@[simp] theorem setPlan_chan (k : Nat) (x : DamPlan) (j : Nat) : (s.setPlan k x).chan j = s.chan j := rfl
@[simp] theorem setPlan_linkAt (k : Nat) (x : DamPlan) (j : Nat) : (s.setPlan k x).linkAt j = s.linkAt j := rfl
@[simp] theorem setPlan_tripLine (k : Nat) (x : DamPlan) (j : Nat) : (s.setPlan k x).tripLine j = s.tripLine j := rfl

/-! ### setChan -/

@[simp] theorem setChan_pending (c : Nat) (x : Channel) : (s.setChan c x).pending = s.pending := rfl
@[simp] theorem setChan_freeCount (c : Nat) (x : Channel) : (s.setChan c x).freeCount = s.freeCount := rfl
@[simp] theorem setChan_clock (c : Nat) (x : Channel) : (s.setChan c x).clock = s.clock := rfl
@[simp] theorem setChan_mode (c : Nat) (x : Channel) : (s.setChan c x).mode = s.mode := rfl
@[simp] theorem setChan_resetCause (c : Nat) (x : Channel) : (s.setChan c x).resetCause = s.resetCause := rfl
@[simp] theorem setChan_loadResult (c : Nat) (x : Channel) : (s.setChan c x).loadResult = s.loadResult := rfl
@[simp] theorem setChan_active (c : Nat) (x : Channel) : (s.setChan c x).active = s.active := rfl
@[simp] theorem setChan_working (c : Nat) (x : Channel) : (s.setChan c x).working = s.working := rfl
@[simp] theorem setChan_limits (c : Nat) (x : Channel) : (s.setChan c x).limits = s.limits := rfl
@[simp] theorem setChan_store (c : Nat) (x : Channel) : (s.setChan c x).store = s.store := rfl
@[simp] theorem setChan_gauges (c : Nat) (x : Channel) : (s.setChan c x).gauges = s.gauges := rfl
@[simp] theorem setChan_pools (c : Nat) (x : Channel) : (s.setChan c x).pools = s.pools := rfl
@[simp] theorem setChan_pass (c : Nat) (x : Channel) : (s.setChan c x).pass = s.pass := rfl
@[simp] theorem setChan_forecast (c : Nat) (x : Channel) : (s.setChan c x).forecast = s.forecast := rfl
@[simp] theorem setChan_dams (c : Nat) (x : Channel) : (s.setChan c x).dams = s.dams := rfl
@[simp] theorem setChan_reaches (c : Nat) (x : Channel) : (s.setChan c x).reaches = s.reaches := rfl
@[simp] theorem setChan_claims (c : Nat) (x : Channel) : (s.setChan c x).claims = s.claims := rfl
@[simp] theorem setChan_generations (c : Nat) (x : Channel) : (s.setChan c x).generations = s.generations := rfl
@[simp] theorem setChan_intake (c : Nat) (x : Channel) : (s.setChan c x).intake = s.intake := rfl
@[simp] theorem setChan_leaving (c : Nat) (x : Channel) : (s.setChan c x).leaving = s.leaving := rfl
@[simp] theorem setChan_plans (c : Nat) (x : Channel) : (s.setChan c x).plans = s.plans := rfl
@[simp] theorem setChan_tripLines (c : Nat) (x : Channel) : (s.setChan c x).tripLines = s.tripLines := rfl
@[simp] theorem setChan_links (c : Nat) (x : Channel) : (s.setChan c x).links = s.links := rfl
@[simp] theorem setChan_capture (c : Nat) (x : Channel) : (s.setChan c x).capture = s.capture := rfl
@[simp] theorem setChan_gauge (c : Nat) (x : Channel) (j : Nat) : (s.setChan c x).gauge j = s.gauge j := rfl
@[simp] theorem setChan_poolAt (c : Nat) (x : Channel) (j : Nat) : (s.setChan c x).poolAt j = s.poolAt j := rfl
@[simp] theorem setChan_limitsAt (c : Nat) (x : Channel) (j : Nat) : (s.setChan c x).limitsAt j = s.limitsAt j := rfl
@[simp] theorem setChan_damAt (c : Nat) (x : Channel) (j : Nat) : (s.setChan c x).damAt j = s.damAt j := rfl
@[simp] theorem setChan_reachAt (c : Nat) (x : Channel) (j : Nat) : (s.setChan c x).reachAt j = s.reachAt j := rfl
@[simp] theorem setChan_planAt (c : Nat) (x : Channel) (j : Nat) : (s.setChan c x).planAt j = s.planAt j := rfl
@[simp] theorem setChan_linkAt (c : Nat) (x : Channel) (j : Nat) : (s.setChan c x).linkAt j = s.linkAt j := rfl
@[simp] theorem setChan_tripLine (c : Nat) (x : Channel) (j : Nat) : (s.setChan c x).tripLine j = s.tripLine j := rfl

/-! ### setLink -/

@[simp] theorem setLink_pending (l : Nat) (x : Link) : (s.setLink l x).pending = s.pending := rfl
@[simp] theorem setLink_freeCount (l : Nat) (x : Link) : (s.setLink l x).freeCount = s.freeCount := rfl
@[simp] theorem setLink_clock (l : Nat) (x : Link) : (s.setLink l x).clock = s.clock := rfl
@[simp] theorem setLink_mode (l : Nat) (x : Link) : (s.setLink l x).mode = s.mode := rfl
@[simp] theorem setLink_resetCause (l : Nat) (x : Link) : (s.setLink l x).resetCause = s.resetCause := rfl
@[simp] theorem setLink_loadResult (l : Nat) (x : Link) : (s.setLink l x).loadResult = s.loadResult := rfl
@[simp] theorem setLink_active (l : Nat) (x : Link) : (s.setLink l x).active = s.active := rfl
@[simp] theorem setLink_working (l : Nat) (x : Link) : (s.setLink l x).working = s.working := rfl
@[simp] theorem setLink_limits (l : Nat) (x : Link) : (s.setLink l x).limits = s.limits := rfl
@[simp] theorem setLink_store (l : Nat) (x : Link) : (s.setLink l x).store = s.store := rfl
@[simp] theorem setLink_gauges (l : Nat) (x : Link) : (s.setLink l x).gauges = s.gauges := rfl
@[simp] theorem setLink_pools (l : Nat) (x : Link) : (s.setLink l x).pools = s.pools := rfl
@[simp] theorem setLink_pass (l : Nat) (x : Link) : (s.setLink l x).pass = s.pass := rfl
@[simp] theorem setLink_forecast (l : Nat) (x : Link) : (s.setLink l x).forecast = s.forecast := rfl
@[simp] theorem setLink_dams (l : Nat) (x : Link) : (s.setLink l x).dams = s.dams := rfl
@[simp] theorem setLink_reaches (l : Nat) (x : Link) : (s.setLink l x).reaches = s.reaches := rfl
@[simp] theorem setLink_claims (l : Nat) (x : Link) : (s.setLink l x).claims = s.claims := rfl
@[simp] theorem setLink_generations (l : Nat) (x : Link) : (s.setLink l x).generations = s.generations := rfl
@[simp] theorem setLink_intake (l : Nat) (x : Link) : (s.setLink l x).intake = s.intake := rfl
@[simp] theorem setLink_leaving (l : Nat) (x : Link) : (s.setLink l x).leaving = s.leaving := rfl
@[simp] theorem setLink_plans (l : Nat) (x : Link) : (s.setLink l x).plans = s.plans := rfl
@[simp] theorem setLink_channels (l : Nat) (x : Link) : (s.setLink l x).channels = s.channels := rfl
@[simp] theorem setLink_tripLines (l : Nat) (x : Link) : (s.setLink l x).tripLines = s.tripLines := rfl
@[simp] theorem setLink_capture (l : Nat) (x : Link) : (s.setLink l x).capture = s.capture := rfl
@[simp] theorem setLink_gauge (l : Nat) (x : Link) (j : Nat) : (s.setLink l x).gauge j = s.gauge j := rfl
@[simp] theorem setLink_poolAt (l : Nat) (x : Link) (j : Nat) : (s.setLink l x).poolAt j = s.poolAt j := rfl
@[simp] theorem setLink_limitsAt (l : Nat) (x : Link) (j : Nat) : (s.setLink l x).limitsAt j = s.limitsAt j := rfl
@[simp] theorem setLink_damAt (l : Nat) (x : Link) (j : Nat) : (s.setLink l x).damAt j = s.damAt j := rfl
@[simp] theorem setLink_reachAt (l : Nat) (x : Link) (j : Nat) : (s.setLink l x).reachAt j = s.reachAt j := rfl
@[simp] theorem setLink_planAt (l : Nat) (x : Link) (j : Nat) : (s.setLink l x).planAt j = s.planAt j := rfl
@[simp] theorem setLink_chan (l : Nat) (x : Link) (j : Nat) : (s.setLink l x).chan j = s.chan j := rfl
@[simp] theorem setLink_tripLine (l : Nat) (x : Link) (j : Nat) : (s.setLink l x).tripLine j = s.tripLine j := rfl

/-! ### setTripLine -/

@[simp] theorem setTripLine_pending (c : Nat) (b : Bool) : (s.setTripLine c b).pending = s.pending := rfl
@[simp] theorem setTripLine_freeCount (c : Nat) (b : Bool) : (s.setTripLine c b).freeCount = s.freeCount := rfl
@[simp] theorem setTripLine_clock (c : Nat) (b : Bool) : (s.setTripLine c b).clock = s.clock := rfl
@[simp] theorem setTripLine_mode (c : Nat) (b : Bool) : (s.setTripLine c b).mode = s.mode := rfl
@[simp] theorem setTripLine_resetCause (c : Nat) (b : Bool) : (s.setTripLine c b).resetCause = s.resetCause := rfl
@[simp] theorem setTripLine_loadResult (c : Nat) (b : Bool) : (s.setTripLine c b).loadResult = s.loadResult := rfl
@[simp] theorem setTripLine_active (c : Nat) (b : Bool) : (s.setTripLine c b).active = s.active := rfl
@[simp] theorem setTripLine_working (c : Nat) (b : Bool) : (s.setTripLine c b).working = s.working := rfl
@[simp] theorem setTripLine_limits (c : Nat) (b : Bool) : (s.setTripLine c b).limits = s.limits := rfl
@[simp] theorem setTripLine_store (c : Nat) (b : Bool) : (s.setTripLine c b).store = s.store := rfl
@[simp] theorem setTripLine_gauges (c : Nat) (b : Bool) : (s.setTripLine c b).gauges = s.gauges := rfl
@[simp] theorem setTripLine_pools (c : Nat) (b : Bool) : (s.setTripLine c b).pools = s.pools := rfl
@[simp] theorem setTripLine_pass (c : Nat) (b : Bool) : (s.setTripLine c b).pass = s.pass := rfl
@[simp] theorem setTripLine_forecast (c : Nat) (b : Bool) : (s.setTripLine c b).forecast = s.forecast := rfl
@[simp] theorem setTripLine_dams (c : Nat) (b : Bool) : (s.setTripLine c b).dams = s.dams := rfl
@[simp] theorem setTripLine_reaches (c : Nat) (b : Bool) : (s.setTripLine c b).reaches = s.reaches := rfl
@[simp] theorem setTripLine_claims (c : Nat) (b : Bool) : (s.setTripLine c b).claims = s.claims := rfl
@[simp] theorem setTripLine_generations (c : Nat) (b : Bool) : (s.setTripLine c b).generations = s.generations := rfl
@[simp] theorem setTripLine_intake (c : Nat) (b : Bool) : (s.setTripLine c b).intake = s.intake := rfl
@[simp] theorem setTripLine_leaving (c : Nat) (b : Bool) : (s.setTripLine c b).leaving = s.leaving := rfl
@[simp] theorem setTripLine_plans (c : Nat) (b : Bool) : (s.setTripLine c b).plans = s.plans := rfl
@[simp] theorem setTripLine_channels (c : Nat) (b : Bool) : (s.setTripLine c b).channels = s.channels := rfl
@[simp] theorem setTripLine_links (c : Nat) (b : Bool) : (s.setTripLine c b).links = s.links := rfl
@[simp] theorem setTripLine_capture (c : Nat) (b : Bool) : (s.setTripLine c b).capture = s.capture := rfl
@[simp] theorem setTripLine_gauge (c : Nat) (b : Bool) (j : Nat) : (s.setTripLine c b).gauge j = s.gauge j := rfl
@[simp] theorem setTripLine_poolAt (c : Nat) (b : Bool) (j : Nat) : (s.setTripLine c b).poolAt j = s.poolAt j := rfl
@[simp] theorem setTripLine_limitsAt (c : Nat) (b : Bool) (j : Nat) : (s.setTripLine c b).limitsAt j = s.limitsAt j := rfl
@[simp] theorem setTripLine_damAt (c : Nat) (b : Bool) (j : Nat) : (s.setTripLine c b).damAt j = s.damAt j := rfl
@[simp] theorem setTripLine_reachAt (c : Nat) (b : Bool) (j : Nat) : (s.setTripLine c b).reachAt j = s.reachAt j := rfl
@[simp] theorem setTripLine_planAt (c : Nat) (b : Bool) (j : Nat) : (s.setTripLine c b).planAt j = s.planAt j := rfl
@[simp] theorem setTripLine_chan (c : Nat) (b : Bool) (j : Nat) : (s.setTripLine c b).chan j = s.chan j := rfl
@[simp] theorem setTripLine_linkAt (c : Nat) (b : Bool) (j : Nat) : (s.setTripLine c b).linkAt j = s.linkAt j := rfl

/-! ### updateClaim -/

@[simp] theorem updateClaim_pending (h : Nat) (f : Claim → Claim) : (s.updateClaim h f).pending = s.pending := rfl
@[simp] theorem updateClaim_freeCount (h : Nat) (f : Claim → Claim) : (s.updateClaim h f).freeCount = s.freeCount := rfl
@[simp] theorem updateClaim_clock (h : Nat) (f : Claim → Claim) : (s.updateClaim h f).clock = s.clock := rfl
@[simp] theorem updateClaim_mode (h : Nat) (f : Claim → Claim) : (s.updateClaim h f).mode = s.mode := rfl
@[simp] theorem updateClaim_resetCause (h : Nat) (f : Claim → Claim) : (s.updateClaim h f).resetCause = s.resetCause := rfl
@[simp] theorem updateClaim_loadResult (h : Nat) (f : Claim → Claim) : (s.updateClaim h f).loadResult = s.loadResult := rfl
@[simp] theorem updateClaim_active (h : Nat) (f : Claim → Claim) : (s.updateClaim h f).active = s.active := rfl
@[simp] theorem updateClaim_working (h : Nat) (f : Claim → Claim) : (s.updateClaim h f).working = s.working := rfl
@[simp] theorem updateClaim_limits (h : Nat) (f : Claim → Claim) : (s.updateClaim h f).limits = s.limits := rfl
@[simp] theorem updateClaim_store (h : Nat) (f : Claim → Claim) : (s.updateClaim h f).store = s.store := rfl
@[simp] theorem updateClaim_gauges (h : Nat) (f : Claim → Claim) : (s.updateClaim h f).gauges = s.gauges := rfl
@[simp] theorem updateClaim_pools (h : Nat) (f : Claim → Claim) : (s.updateClaim h f).pools = s.pools := rfl
@[simp] theorem updateClaim_pass (h : Nat) (f : Claim → Claim) : (s.updateClaim h f).pass = s.pass := rfl
@[simp] theorem updateClaim_forecast (h : Nat) (f : Claim → Claim) : (s.updateClaim h f).forecast = s.forecast := rfl
@[simp] theorem updateClaim_dams (h : Nat) (f : Claim → Claim) : (s.updateClaim h f).dams = s.dams := rfl
@[simp] theorem updateClaim_reaches (h : Nat) (f : Claim → Claim) : (s.updateClaim h f).reaches = s.reaches := rfl
@[simp] theorem updateClaim_generations (h : Nat) (f : Claim → Claim) : (s.updateClaim h f).generations = s.generations := rfl
@[simp] theorem updateClaim_intake (h : Nat) (f : Claim → Claim) : (s.updateClaim h f).intake = s.intake := rfl
@[simp] theorem updateClaim_leaving (h : Nat) (f : Claim → Claim) : (s.updateClaim h f).leaving = s.leaving := rfl
@[simp] theorem updateClaim_plans (h : Nat) (f : Claim → Claim) : (s.updateClaim h f).plans = s.plans := rfl
@[simp] theorem updateClaim_channels (h : Nat) (f : Claim → Claim) : (s.updateClaim h f).channels = s.channels := rfl
@[simp] theorem updateClaim_tripLines (h : Nat) (f : Claim → Claim) : (s.updateClaim h f).tripLines = s.tripLines := rfl
@[simp] theorem updateClaim_links (h : Nat) (f : Claim → Claim) : (s.updateClaim h f).links = s.links := rfl
@[simp] theorem updateClaim_capture (h : Nat) (f : Claim → Claim) : (s.updateClaim h f).capture = s.capture := rfl
@[simp] theorem updateClaim_gauge (h : Nat) (f : Claim → Claim) (j : Nat) : (s.updateClaim h f).gauge j = s.gauge j := rfl
@[simp] theorem updateClaim_poolAt (h : Nat) (f : Claim → Claim) (j : Nat) : (s.updateClaim h f).poolAt j = s.poolAt j := rfl
@[simp] theorem updateClaim_limitsAt (h : Nat) (f : Claim → Claim) (j : Nat) : (s.updateClaim h f).limitsAt j = s.limitsAt j := rfl
@[simp] theorem updateClaim_damAt (h : Nat) (f : Claim → Claim) (j : Nat) : (s.updateClaim h f).damAt j = s.damAt j := rfl
@[simp] theorem updateClaim_reachAt (h : Nat) (f : Claim → Claim) (j : Nat) : (s.updateClaim h f).reachAt j = s.reachAt j := rfl
@[simp] theorem updateClaim_planAt (h : Nat) (f : Claim → Claim) (j : Nat) : (s.updateClaim h f).planAt j = s.planAt j := rfl
@[simp] theorem updateClaim_chan (h : Nat) (f : Claim → Claim) (j : Nat) : (s.updateClaim h f).chan j = s.chan j := rfl
@[simp] theorem updateClaim_linkAt (h : Nat) (f : Claim → Claim) (j : Nat) : (s.updateClaim h f).linkAt j = s.linkAt j := rfl
@[simp] theorem updateClaim_tripLine (h : Nat) (f : Claim → Claim) (j : Nat) : (s.updateClaim h f).tripLine j = s.tripLine j := rfl

/-! ### dropClaim -/

@[simp] theorem dropClaim_pending (h : Nat) : (s.dropClaim h).pending = s.pending := rfl
@[simp] theorem dropClaim_freeCount (h : Nat) : (s.dropClaim h).freeCount = s.freeCount := rfl
@[simp] theorem dropClaim_clock (h : Nat) : (s.dropClaim h).clock = s.clock := rfl
@[simp] theorem dropClaim_mode (h : Nat) : (s.dropClaim h).mode = s.mode := rfl
@[simp] theorem dropClaim_resetCause (h : Nat) : (s.dropClaim h).resetCause = s.resetCause := rfl
@[simp] theorem dropClaim_loadResult (h : Nat) : (s.dropClaim h).loadResult = s.loadResult := rfl
@[simp] theorem dropClaim_active (h : Nat) : (s.dropClaim h).active = s.active := rfl
@[simp] theorem dropClaim_working (h : Nat) : (s.dropClaim h).working = s.working := rfl
@[simp] theorem dropClaim_limits (h : Nat) : (s.dropClaim h).limits = s.limits := rfl
@[simp] theorem dropClaim_store (h : Nat) : (s.dropClaim h).store = s.store := rfl
@[simp] theorem dropClaim_gauges (h : Nat) : (s.dropClaim h).gauges = s.gauges := rfl
@[simp] theorem dropClaim_pools (h : Nat) : (s.dropClaim h).pools = s.pools := rfl
@[simp] theorem dropClaim_pass (h : Nat) : (s.dropClaim h).pass = s.pass := rfl
@[simp] theorem dropClaim_forecast (h : Nat) : (s.dropClaim h).forecast = s.forecast := rfl
@[simp] theorem dropClaim_dams (h : Nat) : (s.dropClaim h).dams = s.dams := rfl
@[simp] theorem dropClaim_reaches (h : Nat) : (s.dropClaim h).reaches = s.reaches := rfl
@[simp] theorem dropClaim_generations (h : Nat) : (s.dropClaim h).generations = s.generations := rfl
@[simp] theorem dropClaim_intake (h : Nat) : (s.dropClaim h).intake = s.intake := rfl
@[simp] theorem dropClaim_leaving (h : Nat) : (s.dropClaim h).leaving = s.leaving := rfl
@[simp] theorem dropClaim_plans (h : Nat) : (s.dropClaim h).plans = s.plans := rfl
@[simp] theorem dropClaim_channels (h : Nat) : (s.dropClaim h).channels = s.channels := rfl
@[simp] theorem dropClaim_tripLines (h : Nat) : (s.dropClaim h).tripLines = s.tripLines := rfl
@[simp] theorem dropClaim_links (h : Nat) : (s.dropClaim h).links = s.links := rfl
@[simp] theorem dropClaim_capture (h : Nat) : (s.dropClaim h).capture = s.capture := rfl
@[simp] theorem dropClaim_gauge (h : Nat) (j : Nat) : (s.dropClaim h).gauge j = s.gauge j := rfl
@[simp] theorem dropClaim_poolAt (h : Nat) (j : Nat) : (s.dropClaim h).poolAt j = s.poolAt j := rfl
@[simp] theorem dropClaim_limitsAt (h : Nat) (j : Nat) : (s.dropClaim h).limitsAt j = s.limitsAt j := rfl
@[simp] theorem dropClaim_damAt (h : Nat) (j : Nat) : (s.dropClaim h).damAt j = s.damAt j := rfl
@[simp] theorem dropClaim_reachAt (h : Nat) (j : Nat) : (s.dropClaim h).reachAt j = s.reachAt j := rfl
@[simp] theorem dropClaim_planAt (h : Nat) (j : Nat) : (s.dropClaim h).planAt j = s.planAt j := rfl
@[simp] theorem dropClaim_chan (h : Nat) (j : Nat) : (s.dropClaim h).chan j = s.chan j := rfl
@[simp] theorem dropClaim_linkAt (h : Nat) (j : Nat) : (s.dropClaim h).linkAt j = s.linkAt j := rfl
@[simp] theorem dropClaim_tripLine (h : Nat) (j : Nat) : (s.dropClaim h).tripLine j = s.tripLine j := rfl

/-! ### raise -/

@[simp] theorem raise_pending (c : Condition) (f : Nat → Bool) : (s.raise c f).pending = s.pending := rfl
@[simp] theorem raise_freeCount (c : Condition) (f : Nat → Bool) : (s.raise c f).freeCount = s.freeCount := rfl
@[simp] theorem raise_clock (c : Condition) (f : Nat → Bool) : (s.raise c f).clock = s.clock := rfl
@[simp] theorem raise_mode (c : Condition) (f : Nat → Bool) : (s.raise c f).mode = s.mode := rfl
@[simp] theorem raise_resetCause (c : Condition) (f : Nat → Bool) : (s.raise c f).resetCause = s.resetCause := rfl
@[simp] theorem raise_loadResult (c : Condition) (f : Nat → Bool) : (s.raise c f).loadResult = s.loadResult := rfl
@[simp] theorem raise_active (c : Condition) (f : Nat → Bool) : (s.raise c f).active = s.active := rfl
@[simp] theorem raise_working (c : Condition) (f : Nat → Bool) : (s.raise c f).working = s.working := rfl
@[simp] theorem raise_limits (c : Condition) (f : Nat → Bool) : (s.raise c f).limits = s.limits := rfl
@[simp] theorem raise_store (c : Condition) (f : Nat → Bool) : (s.raise c f).store = s.store := rfl
@[simp] theorem raise_gauges (c : Condition) (f : Nat → Bool) : (s.raise c f).gauges = s.gauges := rfl
@[simp] theorem raise_pools (c : Condition) (f : Nat → Bool) : (s.raise c f).pools = s.pools := rfl
@[simp] theorem raise_pass (c : Condition) (f : Nat → Bool) : (s.raise c f).pass = s.pass := rfl
@[simp] theorem raise_forecast (c : Condition) (f : Nat → Bool) : (s.raise c f).forecast = s.forecast := rfl
@[simp] theorem raise_dams (c : Condition) (f : Nat → Bool) : (s.raise c f).dams = s.dams := rfl
@[simp] theorem raise_reaches (c : Condition) (f : Nat → Bool) : (s.raise c f).reaches = s.reaches := rfl
@[simp] theorem raise_claims (c : Condition) (f : Nat → Bool) : (s.raise c f).claims = s.claims := rfl
@[simp] theorem raise_generations (c : Condition) (f : Nat → Bool) : (s.raise c f).generations = s.generations := rfl
@[simp] theorem raise_intake (c : Condition) (f : Nat → Bool) : (s.raise c f).intake = s.intake := rfl
@[simp] theorem raise_leaving (c : Condition) (f : Nat → Bool) : (s.raise c f).leaving = s.leaving := rfl
@[simp] theorem raise_plans (c : Condition) (f : Nat → Bool) : (s.raise c f).plans = s.plans := rfl
@[simp] theorem raise_channels (c : Condition) (f : Nat → Bool) : (s.raise c f).channels = s.channels := rfl
@[simp] theorem raise_tripLines (c : Condition) (f : Nat → Bool) : (s.raise c f).tripLines = s.tripLines := rfl
@[simp] theorem raise_capture (c : Condition) (f : Nat → Bool) : (s.raise c f).capture = s.capture := rfl
@[simp] theorem raise_gauge (c : Condition) (f : Nat → Bool) (j : Nat) : (s.raise c f).gauge j = s.gauge j := rfl
@[simp] theorem raise_poolAt (c : Condition) (f : Nat → Bool) (j : Nat) : (s.raise c f).poolAt j = s.poolAt j := rfl
@[simp] theorem raise_limitsAt (c : Condition) (f : Nat → Bool) (j : Nat) : (s.raise c f).limitsAt j = s.limitsAt j := rfl
@[simp] theorem raise_damAt (c : Condition) (f : Nat → Bool) (j : Nat) : (s.raise c f).damAt j = s.damAt j := rfl
@[simp] theorem raise_reachAt (c : Condition) (f : Nat → Bool) (j : Nat) : (s.raise c f).reachAt j = s.reachAt j := rfl
@[simp] theorem raise_planAt (c : Condition) (f : Nat → Bool) (j : Nat) : (s.raise c f).planAt j = s.planAt j := rfl
@[simp] theorem raise_chan (c : Condition) (f : Nat → Bool) (j : Nat) : (s.raise c f).chan j = s.chan j := rfl
@[simp] theorem raise_tripLine (c : Condition) (f : Nat → Bool) (j : Nat) : (s.raise c f).tripLine j = s.tripLine j := rfl

/-! ### outOfBand -/

@[simp] theorem outOfBand_pending (k : Nat) : (s.outOfBand k).pending = s.pending := rfl
@[simp] theorem outOfBand_freeCount (k : Nat) : (s.outOfBand k).freeCount = s.freeCount := rfl
@[simp] theorem outOfBand_clock (k : Nat) : (s.outOfBand k).clock = s.clock := rfl
@[simp] theorem outOfBand_mode (k : Nat) : (s.outOfBand k).mode = s.mode := rfl
@[simp] theorem outOfBand_resetCause (k : Nat) : (s.outOfBand k).resetCause = s.resetCause := rfl
@[simp] theorem outOfBand_loadResult (k : Nat) : (s.outOfBand k).loadResult = s.loadResult := rfl
@[simp] theorem outOfBand_active (k : Nat) : (s.outOfBand k).active = s.active := rfl
@[simp] theorem outOfBand_working (k : Nat) : (s.outOfBand k).working = s.working := rfl
@[simp] theorem outOfBand_limits (k : Nat) : (s.outOfBand k).limits = s.limits := rfl
@[simp] theorem outOfBand_store (k : Nat) : (s.outOfBand k).store = s.store := rfl
@[simp] theorem outOfBand_gauges (k : Nat) : (s.outOfBand k).gauges = s.gauges := rfl
@[simp] theorem outOfBand_pools (k : Nat) : (s.outOfBand k).pools = s.pools := rfl
@[simp] theorem outOfBand_pass (k : Nat) : (s.outOfBand k).pass = s.pass := rfl
@[simp] theorem outOfBand_forecast (k : Nat) : (s.outOfBand k).forecast = s.forecast := rfl
@[simp] theorem outOfBand_dams (k : Nat) : (s.outOfBand k).dams = s.dams := rfl
@[simp] theorem outOfBand_reaches (k : Nat) : (s.outOfBand k).reaches = s.reaches := rfl
@[simp] theorem outOfBand_claims (k : Nat) : (s.outOfBand k).claims = s.claims := rfl
@[simp] theorem outOfBand_generations (k : Nat) : (s.outOfBand k).generations = s.generations := rfl
@[simp] theorem outOfBand_intake (k : Nat) : (s.outOfBand k).intake = s.intake := rfl
@[simp] theorem outOfBand_leaving (k : Nat) : (s.outOfBand k).leaving = s.leaving := rfl
@[simp] theorem outOfBand_plans (k : Nat) : (s.outOfBand k).plans = s.plans := rfl
@[simp] theorem outOfBand_channels (k : Nat) : (s.outOfBand k).channels = s.channels := rfl
@[simp] theorem outOfBand_tripLines (k : Nat) : (s.outOfBand k).tripLines = s.tripLines := rfl
@[simp] theorem outOfBand_capture (k : Nat) : (s.outOfBand k).capture = s.capture := rfl
@[simp] theorem outOfBand_gauge (k : Nat) (j : Nat) : (s.outOfBand k).gauge j = s.gauge j := rfl
@[simp] theorem outOfBand_poolAt (k : Nat) (j : Nat) : (s.outOfBand k).poolAt j = s.poolAt j := rfl
@[simp] theorem outOfBand_limitsAt (k : Nat) (j : Nat) : (s.outOfBand k).limitsAt j = s.limitsAt j := rfl
@[simp] theorem outOfBand_damAt (k : Nat) (j : Nat) : (s.outOfBand k).damAt j = s.damAt j := rfl
@[simp] theorem outOfBand_reachAt (k : Nat) (j : Nat) : (s.outOfBand k).reachAt j = s.reachAt j := rfl
@[simp] theorem outOfBand_planAt (k : Nat) (j : Nat) : (s.outOfBand k).planAt j = s.planAt j := rfl
@[simp] theorem outOfBand_chan (k : Nat) (j : Nat) : (s.outOfBand k).chan j = s.chan j := rfl
@[simp] theorem outOfBand_tripLine (k : Nat) (j : Nat) : (s.outOfBand k).tripLine j = s.tripLine j := rfl

/-! ### offer -/

@[simp] theorem offer_pending (k : CaptureKind) (n : Nat) (a b : Option Nat) : (s.offer k n a b).pending = s.pending := rfl
@[simp] theorem offer_freeCount (k : CaptureKind) (n : Nat) (a b : Option Nat) : (s.offer k n a b).freeCount = s.freeCount := rfl
@[simp] theorem offer_clock (k : CaptureKind) (n : Nat) (a b : Option Nat) : (s.offer k n a b).clock = s.clock := rfl
@[simp] theorem offer_mode (k : CaptureKind) (n : Nat) (a b : Option Nat) : (s.offer k n a b).mode = s.mode := rfl
@[simp] theorem offer_resetCause (k : CaptureKind) (n : Nat) (a b : Option Nat) : (s.offer k n a b).resetCause = s.resetCause := rfl
@[simp] theorem offer_loadResult (k : CaptureKind) (n : Nat) (a b : Option Nat) : (s.offer k n a b).loadResult = s.loadResult := rfl
@[simp] theorem offer_active (k : CaptureKind) (n : Nat) (a b : Option Nat) : (s.offer k n a b).active = s.active := rfl
@[simp] theorem offer_working (k : CaptureKind) (n : Nat) (a b : Option Nat) : (s.offer k n a b).working = s.working := rfl
@[simp] theorem offer_limits (k : CaptureKind) (n : Nat) (a b : Option Nat) : (s.offer k n a b).limits = s.limits := rfl
@[simp] theorem offer_store (k : CaptureKind) (n : Nat) (a b : Option Nat) : (s.offer k n a b).store = s.store := rfl
@[simp] theorem offer_gauges (k : CaptureKind) (n : Nat) (a b : Option Nat) : (s.offer k n a b).gauges = s.gauges := rfl
@[simp] theorem offer_pools (k : CaptureKind) (n : Nat) (a b : Option Nat) : (s.offer k n a b).pools = s.pools := rfl
@[simp] theorem offer_pass (k : CaptureKind) (n : Nat) (a b : Option Nat) : (s.offer k n a b).pass = s.pass := rfl
@[simp] theorem offer_forecast (k : CaptureKind) (n : Nat) (a b : Option Nat) : (s.offer k n a b).forecast = s.forecast := rfl
@[simp] theorem offer_dams (k : CaptureKind) (n : Nat) (a b : Option Nat) : (s.offer k n a b).dams = s.dams := rfl
@[simp] theorem offer_reaches (k : CaptureKind) (n : Nat) (a b : Option Nat) : (s.offer k n a b).reaches = s.reaches := rfl
@[simp] theorem offer_claims (k : CaptureKind) (n : Nat) (a b : Option Nat) : (s.offer k n a b).claims = s.claims := rfl
@[simp] theorem offer_generations (k : CaptureKind) (n : Nat) (a b : Option Nat) : (s.offer k n a b).generations = s.generations := rfl
@[simp] theorem offer_intake (k : CaptureKind) (n : Nat) (a b : Option Nat) : (s.offer k n a b).intake = s.intake := rfl
@[simp] theorem offer_leaving (k : CaptureKind) (n : Nat) (a b : Option Nat) : (s.offer k n a b).leaving = s.leaving := rfl
@[simp] theorem offer_plans (k : CaptureKind) (n : Nat) (a b : Option Nat) : (s.offer k n a b).plans = s.plans := rfl
@[simp] theorem offer_channels (k : CaptureKind) (n : Nat) (a b : Option Nat) : (s.offer k n a b).channels = s.channels := rfl
@[simp] theorem offer_tripLines (k : CaptureKind) (n : Nat) (a b : Option Nat) : (s.offer k n a b).tripLines = s.tripLines := rfl
@[simp] theorem offer_links (k : CaptureKind) (n : Nat) (a b : Option Nat) : (s.offer k n a b).links = s.links := rfl
@[simp] theorem offer_gauge (k : CaptureKind) (n : Nat) (a b : Option Nat) (j : Nat) : (s.offer k n a b).gauge j = s.gauge j := rfl
@[simp] theorem offer_poolAt (k : CaptureKind) (n : Nat) (a b : Option Nat) (j : Nat) : (s.offer k n a b).poolAt j = s.poolAt j := rfl
@[simp] theorem offer_limitsAt (k : CaptureKind) (n : Nat) (a b : Option Nat) (j : Nat) : (s.offer k n a b).limitsAt j = s.limitsAt j := rfl
@[simp] theorem offer_damAt (k : CaptureKind) (n : Nat) (a b : Option Nat) (j : Nat) : (s.offer k n a b).damAt j = s.damAt j := rfl
@[simp] theorem offer_reachAt (k : CaptureKind) (n : Nat) (a b : Option Nat) (j : Nat) : (s.offer k n a b).reachAt j = s.reachAt j := rfl
@[simp] theorem offer_planAt (k : CaptureKind) (n : Nat) (a b : Option Nat) (j : Nat) : (s.offer k n a b).planAt j = s.planAt j := rfl
@[simp] theorem offer_chan (k : CaptureKind) (n : Nat) (a b : Option Nat) (j : Nat) : (s.offer k n a b).chan j = s.chan j := rfl
@[simp] theorem offer_linkAt (k : CaptureKind) (n : Nat) (a b : Option Nat) (j : Nat) : (s.offer k n a b).linkAt j = s.linkAt j := rfl
@[simp] theorem offer_tripLine (k : CaptureKind) (n : Nat) (a b : Option Nat) (j : Nat) : (s.offer k n a b).tripLine j = s.tripLine j := rfl

/-! ### setStage -/

@[simp] theorem setStage_pending (x : Stage) : (s.setStage x).pending = s.pending := rfl
@[simp] theorem setStage_freeCount (x : Stage) : (s.setStage x).freeCount = s.freeCount := rfl
@[simp] theorem setStage_clock (x : Stage) : (s.setStage x).clock = s.clock := rfl
@[simp] theorem setStage_mode (x : Stage) : (s.setStage x).mode = s.mode := rfl
@[simp] theorem setStage_resetCause (x : Stage) : (s.setStage x).resetCause = s.resetCause := rfl
@[simp] theorem setStage_loadResult (x : Stage) : (s.setStage x).loadResult = s.loadResult := rfl
@[simp] theorem setStage_active (x : Stage) : (s.setStage x).active = s.active := rfl
@[simp] theorem setStage_working (x : Stage) : (s.setStage x).working = s.working := rfl
@[simp] theorem setStage_limits (x : Stage) : (s.setStage x).limits = s.limits := rfl
@[simp] theorem setStage_store (x : Stage) : (s.setStage x).store = s.store := rfl
@[simp] theorem setStage_gauges (x : Stage) : (s.setStage x).gauges = s.gauges := rfl
@[simp] theorem setStage_pools (x : Stage) : (s.setStage x).pools = s.pools := rfl
@[simp] theorem setStage_forecast (x : Stage) : (s.setStage x).forecast = s.forecast := rfl
@[simp] theorem setStage_dams (x : Stage) : (s.setStage x).dams = s.dams := rfl
@[simp] theorem setStage_reaches (x : Stage) : (s.setStage x).reaches = s.reaches := rfl
@[simp] theorem setStage_claims (x : Stage) : (s.setStage x).claims = s.claims := rfl
@[simp] theorem setStage_generations (x : Stage) : (s.setStage x).generations = s.generations := rfl
@[simp] theorem setStage_intake (x : Stage) : (s.setStage x).intake = s.intake := rfl
@[simp] theorem setStage_leaving (x : Stage) : (s.setStage x).leaving = s.leaving := rfl
@[simp] theorem setStage_plans (x : Stage) : (s.setStage x).plans = s.plans := rfl
@[simp] theorem setStage_channels (x : Stage) : (s.setStage x).channels = s.channels := rfl
@[simp] theorem setStage_tripLines (x : Stage) : (s.setStage x).tripLines = s.tripLines := rfl
@[simp] theorem setStage_links (x : Stage) : (s.setStage x).links = s.links := rfl
@[simp] theorem setStage_capture (x : Stage) : (s.setStage x).capture = s.capture := rfl
@[simp] theorem setStage_gauge (x : Stage) (j : Nat) : (s.setStage x).gauge j = s.gauge j := rfl
@[simp] theorem setStage_poolAt (x : Stage) (j : Nat) : (s.setStage x).poolAt j = s.poolAt j := rfl
@[simp] theorem setStage_limitsAt (x : Stage) (j : Nat) : (s.setStage x).limitsAt j = s.limitsAt j := rfl
@[simp] theorem setStage_damAt (x : Stage) (j : Nat) : (s.setStage x).damAt j = s.damAt j := rfl
@[simp] theorem setStage_reachAt (x : Stage) (j : Nat) : (s.setStage x).reachAt j = s.reachAt j := rfl
@[simp] theorem setStage_planAt (x : Stage) (j : Nat) : (s.setStage x).planAt j = s.planAt j := rfl
@[simp] theorem setStage_chan (x : Stage) (j : Nat) : (s.setStage x).chan j = s.chan j := rfl
@[simp] theorem setStage_linkAt (x : Stage) (j : Nat) : (s.setStage x).linkAt j = s.linkAt j := rfl
@[simp] theorem setStage_tripLine (x : Stage) (j : Nat) : (s.setStage x).tripLine j = s.tripLine j := rfl

/-! ### setWorkDam -/

@[simp] theorem setWorkDam_pending (k : Nat) (w : WorkDam) : (s.setWorkDam k w).pending = s.pending := rfl
@[simp] theorem setWorkDam_freeCount (k : Nat) (w : WorkDam) : (s.setWorkDam k w).freeCount = s.freeCount := rfl
@[simp] theorem setWorkDam_clock (k : Nat) (w : WorkDam) : (s.setWorkDam k w).clock = s.clock := rfl
@[simp] theorem setWorkDam_mode (k : Nat) (w : WorkDam) : (s.setWorkDam k w).mode = s.mode := rfl
@[simp] theorem setWorkDam_resetCause (k : Nat) (w : WorkDam) : (s.setWorkDam k w).resetCause = s.resetCause := rfl
@[simp] theorem setWorkDam_loadResult (k : Nat) (w : WorkDam) : (s.setWorkDam k w).loadResult = s.loadResult := rfl
@[simp] theorem setWorkDam_active (k : Nat) (w : WorkDam) : (s.setWorkDam k w).active = s.active := rfl
@[simp] theorem setWorkDam_working (k : Nat) (w : WorkDam) : (s.setWorkDam k w).working = s.working := rfl
@[simp] theorem setWorkDam_limits (k : Nat) (w : WorkDam) : (s.setWorkDam k w).limits = s.limits := rfl
@[simp] theorem setWorkDam_store (k : Nat) (w : WorkDam) : (s.setWorkDam k w).store = s.store := rfl
@[simp] theorem setWorkDam_gauges (k : Nat) (w : WorkDam) : (s.setWorkDam k w).gauges = s.gauges := rfl
@[simp] theorem setWorkDam_pools (k : Nat) (w : WorkDam) : (s.setWorkDam k w).pools = s.pools := rfl
@[simp] theorem setWorkDam_forecast (k : Nat) (w : WorkDam) : (s.setWorkDam k w).forecast = s.forecast := rfl
@[simp] theorem setWorkDam_dams (k : Nat) (w : WorkDam) : (s.setWorkDam k w).dams = s.dams := rfl
@[simp] theorem setWorkDam_reaches (k : Nat) (w : WorkDam) : (s.setWorkDam k w).reaches = s.reaches := rfl
@[simp] theorem setWorkDam_claims (k : Nat) (w : WorkDam) : (s.setWorkDam k w).claims = s.claims := rfl
@[simp] theorem setWorkDam_generations (k : Nat) (w : WorkDam) : (s.setWorkDam k w).generations = s.generations := rfl
@[simp] theorem setWorkDam_intake (k : Nat) (w : WorkDam) : (s.setWorkDam k w).intake = s.intake := rfl
@[simp] theorem setWorkDam_leaving (k : Nat) (w : WorkDam) : (s.setWorkDam k w).leaving = s.leaving := rfl
@[simp] theorem setWorkDam_plans (k : Nat) (w : WorkDam) : (s.setWorkDam k w).plans = s.plans := rfl
@[simp] theorem setWorkDam_channels (k : Nat) (w : WorkDam) : (s.setWorkDam k w).channels = s.channels := rfl
@[simp] theorem setWorkDam_tripLines (k : Nat) (w : WorkDam) : (s.setWorkDam k w).tripLines = s.tripLines := rfl
@[simp] theorem setWorkDam_links (k : Nat) (w : WorkDam) : (s.setWorkDam k w).links = s.links := rfl
@[simp] theorem setWorkDam_capture (k : Nat) (w : WorkDam) : (s.setWorkDam k w).capture = s.capture := rfl
@[simp] theorem setWorkDam_gauge (k : Nat) (w : WorkDam) (j : Nat) : (s.setWorkDam k w).gauge j = s.gauge j := rfl
@[simp] theorem setWorkDam_poolAt (k : Nat) (w : WorkDam) (j : Nat) : (s.setWorkDam k w).poolAt j = s.poolAt j := rfl
@[simp] theorem setWorkDam_limitsAt (k : Nat) (w : WorkDam) (j : Nat) : (s.setWorkDam k w).limitsAt j = s.limitsAt j := rfl
@[simp] theorem setWorkDam_damAt (k : Nat) (w : WorkDam) (j : Nat) : (s.setWorkDam k w).damAt j = s.damAt j := rfl
@[simp] theorem setWorkDam_reachAt (k : Nat) (w : WorkDam) (j : Nat) : (s.setWorkDam k w).reachAt j = s.reachAt j := rfl
@[simp] theorem setWorkDam_planAt (k : Nat) (w : WorkDam) (j : Nat) : (s.setWorkDam k w).planAt j = s.planAt j := rfl
@[simp] theorem setWorkDam_chan (k : Nat) (w : WorkDam) (j : Nat) : (s.setWorkDam k w).chan j = s.chan j := rfl
@[simp] theorem setWorkDam_linkAt (k : Nat) (w : WorkDam) (j : Nat) : (s.setWorkDam k w).linkAt j = s.linkAt j := rfl
@[simp] theorem setWorkDam_tripLine (k : Nat) (w : WorkDam) (j : Nat) : (s.setWorkDam k w).tripLine j = s.tripLine j := rfl

/-! ### setPassPool -/

@[simp] theorem setPassPool_pending (k : Nat) (x : PoolForecast) : (s.setPassPool k x).pending = s.pending := rfl
@[simp] theorem setPassPool_freeCount (k : Nat) (x : PoolForecast) : (s.setPassPool k x).freeCount = s.freeCount := rfl
@[simp] theorem setPassPool_clock (k : Nat) (x : PoolForecast) : (s.setPassPool k x).clock = s.clock := rfl
@[simp] theorem setPassPool_mode (k : Nat) (x : PoolForecast) : (s.setPassPool k x).mode = s.mode := rfl
@[simp] theorem setPassPool_resetCause (k : Nat) (x : PoolForecast) : (s.setPassPool k x).resetCause = s.resetCause := rfl
@[simp] theorem setPassPool_loadResult (k : Nat) (x : PoolForecast) : (s.setPassPool k x).loadResult = s.loadResult := rfl
@[simp] theorem setPassPool_active (k : Nat) (x : PoolForecast) : (s.setPassPool k x).active = s.active := rfl
@[simp] theorem setPassPool_working (k : Nat) (x : PoolForecast) : (s.setPassPool k x).working = s.working := rfl
@[simp] theorem setPassPool_limits (k : Nat) (x : PoolForecast) : (s.setPassPool k x).limits = s.limits := rfl
@[simp] theorem setPassPool_store (k : Nat) (x : PoolForecast) : (s.setPassPool k x).store = s.store := rfl
@[simp] theorem setPassPool_gauges (k : Nat) (x : PoolForecast) : (s.setPassPool k x).gauges = s.gauges := rfl
@[simp] theorem setPassPool_pools (k : Nat) (x : PoolForecast) : (s.setPassPool k x).pools = s.pools := rfl
@[simp] theorem setPassPool_forecast (k : Nat) (x : PoolForecast) : (s.setPassPool k x).forecast = s.forecast := rfl
@[simp] theorem setPassPool_dams (k : Nat) (x : PoolForecast) : (s.setPassPool k x).dams = s.dams := rfl
@[simp] theorem setPassPool_reaches (k : Nat) (x : PoolForecast) : (s.setPassPool k x).reaches = s.reaches := rfl
@[simp] theorem setPassPool_claims (k : Nat) (x : PoolForecast) : (s.setPassPool k x).claims = s.claims := rfl
@[simp] theorem setPassPool_generations (k : Nat) (x : PoolForecast) : (s.setPassPool k x).generations = s.generations := rfl
@[simp] theorem setPassPool_intake (k : Nat) (x : PoolForecast) : (s.setPassPool k x).intake = s.intake := rfl
@[simp] theorem setPassPool_leaving (k : Nat) (x : PoolForecast) : (s.setPassPool k x).leaving = s.leaving := rfl
@[simp] theorem setPassPool_plans (k : Nat) (x : PoolForecast) : (s.setPassPool k x).plans = s.plans := rfl
@[simp] theorem setPassPool_channels (k : Nat) (x : PoolForecast) : (s.setPassPool k x).channels = s.channels := rfl
@[simp] theorem setPassPool_tripLines (k : Nat) (x : PoolForecast) : (s.setPassPool k x).tripLines = s.tripLines := rfl
@[simp] theorem setPassPool_links (k : Nat) (x : PoolForecast) : (s.setPassPool k x).links = s.links := rfl
@[simp] theorem setPassPool_capture (k : Nat) (x : PoolForecast) : (s.setPassPool k x).capture = s.capture := rfl
@[simp] theorem setPassPool_gauge (k : Nat) (x : PoolForecast) (j : Nat) : (s.setPassPool k x).gauge j = s.gauge j := rfl
@[simp] theorem setPassPool_poolAt (k : Nat) (x : PoolForecast) (j : Nat) : (s.setPassPool k x).poolAt j = s.poolAt j := rfl
@[simp] theorem setPassPool_limitsAt (k : Nat) (x : PoolForecast) (j : Nat) : (s.setPassPool k x).limitsAt j = s.limitsAt j := rfl
@[simp] theorem setPassPool_damAt (k : Nat) (x : PoolForecast) (j : Nat) : (s.setPassPool k x).damAt j = s.damAt j := rfl
@[simp] theorem setPassPool_reachAt (k : Nat) (x : PoolForecast) (j : Nat) : (s.setPassPool k x).reachAt j = s.reachAt j := rfl
@[simp] theorem setPassPool_planAt (k : Nat) (x : PoolForecast) (j : Nat) : (s.setPassPool k x).planAt j = s.planAt j := rfl
@[simp] theorem setPassPool_chan (k : Nat) (x : PoolForecast) (j : Nat) : (s.setPassPool k x).chan j = s.chan j := rfl
@[simp] theorem setPassPool_linkAt (k : Nat) (x : PoolForecast) (j : Nat) : (s.setPassPool k x).linkAt j = s.linkAt j := rfl
@[simp] theorem setPassPool_tripLine (k : Nat) (x : PoolForecast) (j : Nat) : (s.setPassPool k x).tripLine j = s.tripLine j := rfl

/-! ### adjust -/

@[simp] theorem adjust_pending (g : Forecast → Forecast) : (s.adjust g).pending = s.pending := rfl
@[simp] theorem adjust_freeCount (g : Forecast → Forecast) : (s.adjust g).freeCount = s.freeCount := rfl
@[simp] theorem adjust_clock (g : Forecast → Forecast) : (s.adjust g).clock = s.clock := rfl
@[simp] theorem adjust_mode (g : Forecast → Forecast) : (s.adjust g).mode = s.mode := rfl
@[simp] theorem adjust_resetCause (g : Forecast → Forecast) : (s.adjust g).resetCause = s.resetCause := rfl
@[simp] theorem adjust_loadResult (g : Forecast → Forecast) : (s.adjust g).loadResult = s.loadResult := rfl
@[simp] theorem adjust_active (g : Forecast → Forecast) : (s.adjust g).active = s.active := rfl
@[simp] theorem adjust_working (g : Forecast → Forecast) : (s.adjust g).working = s.working := rfl
@[simp] theorem adjust_limits (g : Forecast → Forecast) : (s.adjust g).limits = s.limits := rfl
@[simp] theorem adjust_store (g : Forecast → Forecast) : (s.adjust g).store = s.store := rfl
@[simp] theorem adjust_gauges (g : Forecast → Forecast) : (s.adjust g).gauges = s.gauges := rfl
@[simp] theorem adjust_pools (g : Forecast → Forecast) : (s.adjust g).pools = s.pools := rfl
@[simp] theorem adjust_pass (g : Forecast → Forecast) : (s.adjust g).pass = s.pass := rfl
@[simp] theorem adjust_dams (g : Forecast → Forecast) : (s.adjust g).dams = s.dams := rfl
@[simp] theorem adjust_reaches (g : Forecast → Forecast) : (s.adjust g).reaches = s.reaches := rfl
@[simp] theorem adjust_claims (g : Forecast → Forecast) : (s.adjust g).claims = s.claims := rfl
@[simp] theorem adjust_generations (g : Forecast → Forecast) : (s.adjust g).generations = s.generations := rfl
@[simp] theorem adjust_intake (g : Forecast → Forecast) : (s.adjust g).intake = s.intake := rfl
@[simp] theorem adjust_leaving (g : Forecast → Forecast) : (s.adjust g).leaving = s.leaving := rfl
@[simp] theorem adjust_plans (g : Forecast → Forecast) : (s.adjust g).plans = s.plans := rfl
@[simp] theorem adjust_channels (g : Forecast → Forecast) : (s.adjust g).channels = s.channels := rfl
@[simp] theorem adjust_tripLines (g : Forecast → Forecast) : (s.adjust g).tripLines = s.tripLines := rfl
@[simp] theorem adjust_links (g : Forecast → Forecast) : (s.adjust g).links = s.links := rfl
@[simp] theorem adjust_capture (g : Forecast → Forecast) : (s.adjust g).capture = s.capture := rfl
@[simp] theorem adjust_gauge (g : Forecast → Forecast) (j : Nat) : (s.adjust g).gauge j = s.gauge j := rfl
@[simp] theorem adjust_poolAt (g : Forecast → Forecast) (j : Nat) : (s.adjust g).poolAt j = s.poolAt j := rfl
@[simp] theorem adjust_limitsAt (g : Forecast → Forecast) (j : Nat) : (s.adjust g).limitsAt j = s.limitsAt j := rfl
@[simp] theorem adjust_damAt (g : Forecast → Forecast) (j : Nat) : (s.adjust g).damAt j = s.damAt j := rfl
@[simp] theorem adjust_reachAt (g : Forecast → Forecast) (j : Nat) : (s.adjust g).reachAt j = s.reachAt j := rfl
@[simp] theorem adjust_planAt (g : Forecast → Forecast) (j : Nat) : (s.adjust g).planAt j = s.planAt j := rfl
@[simp] theorem adjust_chan (g : Forecast → Forecast) (j : Nat) : (s.adjust g).chan j = s.chan j := rfl
@[simp] theorem adjust_linkAt (g : Forecast → Forecast) (j : Nat) : (s.adjust g).linkAt j = s.linkAt j := rfl
@[simp] theorem adjust_tripLine (g : Forecast → Forecast) (j : Nat) : (s.adjust g).tripLine j = s.tripLine j := rfl

/-! ### What a written record reads as -/

theorem setGauge_gauge (k j : Nat) (x : Gauge) :
    (s.setGauge k x).gauge j = if j = k ∧ 1 ≤ k ∧ k ≤ 7 then x else s.gauge j := get1_put1 _ _ _ _

@[simp] theorem setGauge_gauge_same {k : Nat} (x : Gauge) (h : 1 ≤ k) (h' : k ≤ 7) : (s.setGauge k x).gauge k = x :=
  get1_put1_same _ _ _ h h'

@[simp] theorem setGauge_gauge_ne {k j : Nat} (x : Gauge) (h : j ≠ k) : (s.setGauge k x).gauge j = s.gauge j :=
  get1_put1_ne _ _ h

theorem setPool_poolAt (k j : Nat) (x : Pool) :
    (s.setPool k x).poolAt j = if j = k ∧ 1 ≤ k ∧ k ≤ 6 then x else s.poolAt j := get1_put1 _ _ _ _

@[simp] theorem setPool_poolAt_same {k : Nat} (x : Pool) (h : 1 ≤ k) (h' : k ≤ 6) : (s.setPool k x).poolAt k = x :=
  get1_put1_same _ _ _ h h'

@[simp] theorem setPool_poolAt_ne {k j : Nat} (x : Pool) (h : j ≠ k) : (s.setPool k x).poolAt j = s.poolAt j :=
  get1_put1_ne _ _ h

theorem setDam_damAt (k j : Nat) (x : DamFlow) :
    (s.setDam k x).damAt j = if j = k ∧ 1 ≤ k ∧ k ≤ 6 then x else s.damAt j := get1_put1 _ _ _ _

@[simp] theorem setDam_damAt_same {k : Nat} (x : DamFlow) (h : 1 ≤ k) (h' : k ≤ 6) : (s.setDam k x).damAt k = x :=
  get1_put1_same _ _ _ h h'

@[simp] theorem setDam_damAt_ne {k j : Nat} (x : DamFlow) (h : j ≠ k) : (s.setDam k x).damAt j = s.damAt j :=
  get1_put1_ne _ _ h

theorem setReach_reachAt (k j : Nat) (x : Reach) :
    (s.setReach k x).reachAt j = if j = k ∧ 1 ≤ k ∧ k ≤ 5 then x else s.reachAt j := get1_put1 _ _ _ _

@[simp] theorem setReach_reachAt_same {k : Nat} (x : Reach) (h : 1 ≤ k) (h' : k ≤ 5) : (s.setReach k x).reachAt k = x :=
  get1_put1_same _ _ _ h h'

@[simp] theorem setReach_reachAt_ne {k j : Nat} (x : Reach) (h : j ≠ k) : (s.setReach k x).reachAt j = s.reachAt j :=
  get1_put1_ne _ _ h

theorem setPlan_planAt (k j : Nat) (x : DamPlan) :
    (s.setPlan k x).planAt j = if j = k ∧ 1 ≤ k ∧ k ≤ 6 then x else s.planAt j := get1_put1 _ _ _ _

@[simp] theorem setPlan_planAt_same {k : Nat} (x : DamPlan) (h : 1 ≤ k) (h' : k ≤ 6) : (s.setPlan k x).planAt k = x :=
  get1_put1_same _ _ _ h h'

@[simp] theorem setPlan_planAt_ne {k j : Nat} (x : DamPlan) (h : j ≠ k) : (s.setPlan k x).planAt j = s.planAt j :=
  get1_put1_ne _ _ h

theorem setLink_linkAt (k j : Nat) (x : Link) :
    (s.setLink k x).linkAt j = if j = k ∧ 1 ≤ k ∧ k ≤ 4 then x else s.linkAt j := get1_put1 _ _ _ _

@[simp] theorem setLink_linkAt_same {k : Nat} (x : Link) (h : 1 ≤ k) (h' : k ≤ 4) : (s.setLink k x).linkAt k = x :=
  get1_put1_same _ _ _ h h'

@[simp] theorem setLink_linkAt_ne {k j : Nat} (x : Link) (h : j ≠ k) : (s.setLink k x).linkAt j = s.linkAt j :=
  get1_put1_ne _ _ h

theorem setChan_chan (k j : Nat) (x : Channel) :
    (s.setChan k x).chan j = if j = k ∧ k < 32 then x else s.chan j := get0_put0 _ _ _ _

@[simp] theorem setChan_chan_same {k : Nat} (x : Channel) (h : k < 32) : (s.setChan k x).chan k = x :=
  get0_put0_same _ _ _ h

@[simp] theorem setChan_chan_ne {k j : Nat} (x : Channel) (h : j ≠ k) : (s.setChan k x).chan j = s.chan j :=
  get0_put0_ne _ _ h

theorem setTripLine_tripLine (k j : Nat) (x : Bool) :
    (s.setTripLine k x).tripLine j = if j = k ∧ k < 32 then x else s.tripLine j := get0_put0 _ _ _ _

@[simp] theorem setTripLine_tripLine_same {k : Nat} (x : Bool) (h : k < 32) : (s.setTripLine k x).tripLine k = x :=
  get0_put0_same _ _ _ h

@[simp] theorem setTripLine_tripLine_ne {k j : Nat} (x : Bool) (h : j ≠ k) : (s.setTripLine k x).tripLine j = s.tripLine j :=
  get0_put0_ne _ _ h

/-- Writing back what a channel reads as changes nothing. -/
@[simp] theorem setChan_chan_self (c : Nat) : s.setChan c (s.chan c) = s := by
  simp [State.setChan, State.chan]

/-- Writing back what a link reads as changes nothing. -/
@[simp] theorem setLink_linkAt_self (l : Nat) : s.setLink l (s.linkAt l) = s := by
  simp [State.setLink, State.linkAt]

@[simp] theorem setLink_setLink (l : Nat) (x y : Link) : (s.setLink l x).setLink l y = s.setLink l y := by
  simp [State.setLink]

/-- R160: what a raised condition leaves on a link. -/
theorem raise_linkAt (c : Condition) (f : Nat → Bool) {l : Nat} (h : l ∈ linkNumbers) :
    (s.raise c f).linkAt l = if f l then Link.latch (s.txContext l) c (s.linkAt l) else s.linkAt l := by
  have : 1 ≤ l ∧ l ≤ 4 := by simp [linkNumbers] at h; omega
  exact get1_gen1_in _ this.1 this.2

end Sys2Proof.Machine
end

