-- ==== Sys2Proof/Laws/Frames.lean ====
section
/-! SUPPORT. What the shared operations leave. Each view blanks the records a group of operations may write, so that an operation
keeps the view exactly when it writes nothing else; a field outside follows by congrArg. -/

namespace Sys2Proof.Machine

/-! ### Views -/

/-- A state whose records stand where a view is blank. -/
@[irreducible] def blank : State := State.reset

/-- All but the links. -/
def State.sansLinks (s : State) : State := { s with links := blank.links }

/-- All but the channels and the links. -/
def State.sansTargets (s : State) : State := { s.sansLinks with channels := blank.channels }

/-- All but the channels, the routing of their flows, and the links. -/
def State.sansFlows (s : State) : State :=
  { s.sansTargets with dams := blank.dams, reaches := blank.reaches }

/-- All but what a pass start writes as well: the pools and the pass. -/
def State.sansPass (s : State) : State := { s.sansFlows with pools := blank.pools, pass := blank.pass }

/-- All but the claims, the plans, the published forecast, the channels and the links. -/
def State.sansClaims (s : State) : State :=
  { s.sansTargets with claims := blank.claims, plans := blank.plans, forecast := blank.forecast }

/-- All but what the cascade runs on: the blocks' records, with the generations and the capture. -/
def State.sansCascade (s : State) : State :=
  { s.sansPass with
    claims := blank.claims, plans := blank.plans, forecast := blank.forecast, generations := blank.generations
    capture := blank.capture }

theorem sansLinks_targets {s t : State} (h : t.sansLinks = s.sansLinks) : t.sansTargets = s.sansTargets := by
  have e : ∀ u : State, u.sansTargets = u.sansLinks.sansTargets := fun u => by
    simp only [State.sansTargets, State.sansLinks]
  rw [e t, h, ← e s]

theorem sansTargets_flows {s t : State} (h : t.sansTargets = s.sansTargets) : t.sansFlows = s.sansFlows := by
  have e : ∀ u : State, u.sansFlows = u.sansTargets.sansFlows := fun u => by
    simp only [State.sansFlows, State.sansTargets, State.sansLinks]
  rw [e t, h, ← e s]

theorem sansFlows_pass {s t : State} (h : t.sansFlows = s.sansFlows) : t.sansPass = s.sansPass := by
  have e : ∀ u : State, u.sansPass = u.sansFlows.sansPass := fun u => by
    simp only [State.sansPass, State.sansFlows, State.sansTargets, State.sansLinks]
  rw [e t, h, ← e s]

theorem sansPass_cascade {s t : State} (h : t.sansPass = s.sansPass) : t.sansCascade = s.sansCascade := by
  have e : ∀ u : State, u.sansCascade = u.sansPass.sansCascade := fun u => by
    simp only [State.sansCascade, State.sansPass, State.sansFlows, State.sansTargets, State.sansLinks]
  rw [e t, h, ← e s]

theorem sansTargets_claims {s t : State} (h : t.sansTargets = s.sansTargets) : t.sansClaims = s.sansClaims := by
  have e : ∀ u : State, u.sansClaims = u.sansTargets.sansClaims := fun u => by
    simp only [State.sansClaims, State.sansTargets, State.sansLinks]
  rw [e t, h, ← e s]

theorem sansClaims_cascade {s t : State} (h : t.sansClaims = s.sansClaims) : t.sansCascade = s.sansCascade := by
  have e : ∀ u : State, u.sansCascade = u.sansClaims.sansCascade := fun u => by
    simp only [State.sansCascade, State.sansClaims, State.sansPass, State.sansFlows, State.sansTargets, State.sansLinks]
  rw [e t, h, ← e s]

/-- A state is another but for the links, when the views agree. -/
theorem eq_of_sansLinks {s t : State} (h : t.sansLinks = s.sansLinks) : t = { s with links := t.links } := by
  cases s; cases t; simpa [State.sansLinks] using h

theorem eq_of_sansTargets {s t : State} (h : t.sansTargets = s.sansTargets) :
    t = { s with channels := t.channels, links := t.links } := by
  cases s; cases t; simpa [State.sansTargets, State.sansLinks] using h

theorem eq_of_sansFlows {s t : State} (h : t.sansFlows = s.sansFlows) :
    t = { s with channels := t.channels, dams := t.dams, reaches := t.reaches, links := t.links } := by
  cases s; cases t; simpa [State.sansFlows, State.sansTargets, State.sansLinks] using h

theorem eq_of_sansPass {s t : State} (h : t.sansPass = s.sansPass) :
    t = { s with
      pools := t.pools, pass := t.pass, channels := t.channels, dams := t.dams, reaches := t.reaches
      links := t.links } := by
  cases s; cases t; simpa [State.sansPass, State.sansFlows, State.sansTargets, State.sansLinks] using h

theorem eq_of_sansClaims {s t : State} (h : t.sansClaims = s.sansClaims) :
    t = { s with
      claims := t.claims, plans := t.plans, forecast := t.forecast, channels := t.channels, links := t.links } := by
  cases s; cases t; simpa [State.sansClaims, State.sansTargets, State.sansLinks] using h

theorem eq_of_sansCascade {s t : State} (h : t.sansCascade = s.sansCascade) :
    t = { s with
      pools := t.pools, pass := t.pass, channels := t.channels, dams := t.dams, reaches := t.reaches
      links := t.links, claims := t.claims, plans := t.plans, forecast := t.forecast
      generations := t.generations, capture := t.capture } := by
  cases s; cases t
  simpa [State.sansCascade, State.sansPass, State.sansFlows, State.sansTargets, State.sansLinks] using h

/-- A fold keeps what its steps keep. -/
theorem foldl_keeps {α β : Type} (view : State → β) (f : State → α → State) (h : ∀ s a, view (f s a) = view s) :
    ∀ (l : List α) (s : State), view (l.foldl f s) = view s
  | [], _ => rfl
  | a :: l, s => (foldl_keeps view f h l (f s a)).trans (h s a)

variable (s : State)

/-! ### Conditions, heads and flows -/

theorem raise_sansLinks (c : Condition) (f : Nat → Bool) : (s.raise c f).sansLinks = s.sansLinks := rfl
theorem raiseDam_sansLinks (c : Condition) (k : Nat) : (s.raiseDam c k).sansLinks = s.sansLinks := rfl
theorem raiseOwner_sansLinks (c : Condition) (o : Nat) : (s.raiseOwner c o).sansLinks = s.sansLinks := rfl
theorem raiseAll_sansLinks (c : Condition) : (s.raiseAll c).sansLinks = s.sansLinks := rfl

theorem evaluateBand_sansLinks (k : Nat) : (s.evaluateBand k).sansLinks = s.sansLinks := by
  unfold State.evaluateBand
  split
  · split <;> rfl
  · rfl

theorem push_sansFlows (k flow : Nat) : (s.push k flow).sansFlows = s.sansFlows := by
  unfold State.push
  extract_lets
  split <;> rfl

theorem push_channels (k flow : Nat) : (s.push k flow).channels = s.channels := by
  unfold State.push
  extract_lets
  split <;> rfl

theorem push_dams (k flow : Nat) : (s.push k flow).dams = s.dams := by
  unfold State.push
  extract_lets
  split <;> rfl

theorem outflowReport_sansFlows (k flow : Nat) : (s.outflowReport k flow).sansFlows = s.sansFlows := by
  unfold State.outflowReport
  extract_lets
  split
  · rw [push_sansFlows]; rfl
  · rfl

theorem outflowReport_channels (k flow : Nat) : (s.outflowReport k flow).channels = s.channels := by
  unfold State.outflowReport
  extract_lets
  split
  · rw [push_channels]; rfl
  · rfl

theorem setActualIn_sansFlows (t : TableSet) (c flow : Nat) : (s.setActualIn t c flow).sansFlows = s.sansFlows := by
  unfold State.setActualIn
  split
  · rfl
  · extract_lets
    split
    · split
      · rw [outflowReport_sansFlows]; rfl
      · rfl
    · rfl

theorem setActual_sansFlows (c flow : Nat) : (s.setActual c flow).sansFlows = s.sansFlows :=
  setActualIn_sansFlows s _ c flow

/-- R128: a change of actual flow writes that one item of its channel. -/
theorem setActualIn_channels (t : TableSet) (c flow : Nat) :
    (s.setActualIn t c flow).channels = (s.setChan c { s.chan c with actual := flow }).channels := by
  unfold State.setActualIn
  split
  · next h =>
    have e : (s.chan c).actual = flow := by simpa using h
    have : { s.chan c with actual := flow } = s.chan c := by rw [← e]
    rw [this, setChan_chan_self]
  · extract_lets
    split
    · split
      · rw [outflowReport_channels]
      · rfl
    · rfl

theorem reformFlow_sansFlows (c : Nat) : (s.reformFlow c).sansFlows = s.sansFlows := by
  unfold State.reformFlow
  split
  · exact setActual_sansFlows s _ _
  · rfl

theorem reformDam_sansFlows (k : Nat) : (s.reformDam k).sansFlows = s.sansFlows :=
  foldl_keeps State.sansFlows State.reformFlow reformFlow_sansFlows _ _

theorem recompute_sansTargets (k : Nat) : (s.recompute k).sansTargets = s.sansTargets := by
  unfold State.recompute
  extract_lets
  split
  · simp only [State.raiseDam, State.raise, State.sansTargets, State.sansLinks]; rfl
  · simp only [State.sansTargets, State.sansLinks]; rfl

theorem recomputeFor_sansTargets (c : Nat) : (s.recomputeFor c).sansTargets = s.sansTargets :=
  recompute_sansTargets s _

theorem handover_sansTargets (c : Nat) (x : Channel) : (s.handover c x).sansTargets = s.sansTargets :=
  recompute_sansTargets _ _

theorem levelNotice_sansFlows (b : Tab 6 Nat) : (s.levelNotice b).sansFlows = s.sansFlows := by
  unfold State.levelNotice
  refine foldl_keeps State.sansFlows _ (fun s k => ?_) _ _
  split
  · rfl
  · exact (sansTargets_flows (recompute_sansTargets _ _)).trans (reformDam_sansFlows _ _)

/-! ### Forecasts and passes -/

theorem adjustConstant_forecast (k : Nat) (c : Int) :
    { s.adjustConstant k c with forecast := blank.forecast } = { s with forecast := blank.forecast } := by
  unfold State.adjustConstant
  split <;> rfl

theorem evaluateLost_sansLinks : s.evaluateLost.sansLinks = s.sansLinks :=
  foldl_keeps State.sansLinks State.evaluateBand evaluateBand_sansLinks _ _

theorem takeBases_sansPass : s.takeBases.sansPass = s.sansPass := by
  unfold State.takeBases
  extract_lets
  rw [sansFlows_pass (levelNotice_sansFlows _ _),
    sansFlows_pass (sansTargets_flows (sansLinks_targets (evaluateLost_sansLinks _)))]
  rfl

theorem startPass_sansPass : s.startPass.sansPass = s.sansPass := by
  unfold State.startPass
  extract_lets
  split
  · rfl
  · rw [takeBases_sansPass]; rfl

theorem requestPass_sansPass : s.requestPass.sansPass = s.sansPass := by
  unfold State.requestPass
  split
  · rfl
  · split
    · rfl
    · exact startPass_sansPass s

theorem reexamine_sansPass : s.reexamine.sansPass = s.sansPass := by
  unfold State.reexamine
  split
  · exact takeBases_sansPass s
  · rfl

/-! ### Claims -/

theorem removeGrant_sansClaims (c : Claim) (g u : Nat) (e : Forecast → Nat) :
    (s.removeGrant c g u e).sansClaims = s.sansClaims := rfl

theorem addGrant_sansClaims (c : Claim) (g u : Nat) (e : Forecast → Nat) :
    (s.addGrant c g u e).sansClaims = s.sansClaims := rfl

theorem updateClaim_sansClaims (h : Nat) (f : Claim → Claim) : (s.updateClaim h f).sansClaims = s.sansClaims := rfl

theorem adjustConstant_sansClaims (k : Nat) (c : Int) : (s.adjustConstant k c).sansClaims = s.sansClaims := by
  unfold State.adjustConstant
  split <;> rfl

theorem decay_sansClaims (k u : Nat) : (s.decay k u).sansClaims = s.sansClaims := by
  unfold State.decay
  extract_lets
  rw [adjustConstant_sansClaims]; rfl

theorem decayFor_sansClaims (c : Claim) : (s.decayFor c).sansClaims = s.sansClaims := by
  unfold State.decayFor
  split
  · exact decay_sansClaims s _ _
  · rfl

theorem removeClaim_sansClaims (c : Claim) : (s.removeClaim c).sansClaims = s.sansClaims := by
  unfold State.removeClaim
  extract_lets
  split
  · rw [sansTargets_claims (recompute_sansTargets _ _), decayFor_sansClaims]; rfl
  · rw [decayFor_sansClaims]; rfl

theorem endClaim_sansClaims (c : Claim) : (s.endClaim c).sansClaims = s.sansClaims := by
  unfold State.endClaim
  split
  · extract_lets
    split
    · rw [sansTargets_claims (recompute_sansTargets _ _)]; rfl
    · rfl
  · extract_lets
    split
    · exact removeClaim_sansClaims s c
    · exact removeClaim_sansClaims s c

theorem endIfReached_sansClaims (h : Nat) : (s.endIfReached h).sansClaims = s.sansClaims := by
  unfold State.endIfReached
  split
  · split
    · exact endClaim_sansClaims s _
    · rfl
  · rfl

theorem abandonClaims_sansClaims (l : Nat) : (s.abandonClaims l).sansClaims = s.sansClaims := by
  unfold State.abandonClaims
  extract_lets
  refine (foldl_keeps State.sansClaims _ ?_ _ _).trans
    ((foldl_keeps State.sansClaims _ ?_ _ _).trans (foldl_keeps State.sansClaims _ ?_ _ _))
  · exact fun s c => endIfReached_sansClaims s c.handle
  · exact fun s c => updateClaim_sansClaims s c.handle _
  · exact fun s c => removeGrant_sansClaims s c _ _ _

theorem restoreClaims_sansClaims (l : Nat) : (s.restoreClaims l).sansClaims = s.sansClaims := by
  unfold State.restoreClaims
  extract_lets
  refine (foldl_keeps State.sansClaims _ ?_ _ _).trans (foldl_keeps State.sansClaims _ ?_ _ _)
  · exact fun s c => updateClaim_sansClaims s c.handle _
  · exact fun s c => addGrant_sansClaims s c _ _ _

theorem enter_sansCascade (n : Nat) (c : Claim) : (s.enter n c).sansCascade = s.sansCascade := rfl

theorem evaluateArrival_sansCascade (c : Claim) : (s.evaluateArrival c).sansCascade = s.sansCascade := by
  unfold State.evaluateArrival
  extract_lets f r s1 s2
  have h2 : s2.sansCascade = s.sansCascade := by
    unfold s2
    split
    · rw [sansClaims_cascade (sansTargets_claims (recompute_sansTargets _ _))]; rfl
    · rfl
  split
  · rw [sansPass_cascade (requestPass_sansPass _), h2]
  · exact h2

theorem enterWaiting_sansClaims (c : Claim) : (s.enterWaiting c).sansClaims = s.sansClaims := rfl

theorem admitRequest_sansCascade (l : Nat) (cls : MasterClass) (a : Nat) (r : ClaimRequest) :
    (s.admitRequest l cls a r).1.sansCascade = s.sansCascade := by
  unfold State.admitRequest
  split
  · rfl
  · next n _ =>
    extract_lets c s1 s2
    have h2 : s2.sansCascade = s.sansCascade := by
      unfold s2
      split
      · rw [evaluateArrival_sansCascade]; rfl
      · rfl
    split
    · rw [sansClaims_cascade (endIfReached_sansClaims _ _), h2]
    · exact h2

/-! ### Trips, bring-up and faults -/

theorem suspendUnit_sansClaims (u : Nat) : (s.suspendUnit u).sansClaims = s.sansClaims := by
  unfold State.suspendUnit
  extract_lets on s1
  have h : s1.sansClaims = s.sansClaims :=
    foldl_keeps State.sansClaims _ (fun s c => removeGrant_sansClaims s c _ _ _) _ _
  exact Eq.trans rfl h

theorem compensate_sansClaims (k u flow grants : Nat) : (s.compensate k u flow grants).sansClaims = s.sansClaims := by
  unfold State.compensate
  extract_lets wanted limit given s1
  have h1 : s1.sansClaims = s.sansClaims := by
    unfold s1
    split <;> rfl
  split
  · exact h1
  · rw [adjustConstant_sansClaims]; exact h1

theorem reportTrip_sansClaims (k u flow : Nat) : (s.reportTrip k u flow).sansClaims = s.sansClaims := by
  unfold State.reportTrip
  extract_lets grants s1 s2
  have h2 : s2.sansClaims = s.sansClaims := by
    unfold s2
    split
    · rw [compensate_sansClaims]; exact suspendUnit_sansClaims s u
    · exact suspendUnit_sansClaims s u
  rw [sansTargets_claims (recompute_sansTargets _ _), h2]

theorem trip_sansCascade (c : Nat) : (s.trip c).sansCascade = s.sansCascade := by
  unfold State.trip
  extract_lets rec_ k flow s1 s2
  have h2 : s2.sansCascade = s.sansCascade := by
    unfold s2
    rw [sansPass_cascade (requestPass_sansPass _), sansClaims_cascade (reportTrip_sansClaims _ _ _ _)]; rfl
  exact Eq.trans rfl h2

theorem startBringup_sansCascade (c : Nat) : (s.startBringup c).sansCascade = s.sansCascade := by
  unfold State.startBringup
  extract_lets rec_ off s1
  have h1 : s1.sansCascade = s.sansCascade :=
    sansClaims_cascade (sansTargets_claims (handover_sansTargets s c _))
  split
  · rw [trip_sansCascade, h1]
  · exact h1

theorem bringUpAll_sansCascade : s.bringUpAll.sansCascade = s.sansCascade :=
  foldl_keeps State.sansCascade State.startBringup startBringup_sansCascade _ _

theorem enterReady_sansPass (c : Nat) : (s.enterReady c).sansPass = s.sansPass := by
  unfold State.enterReady
  extract_lets
  rw [sansFlows_pass (sansTargets_flows (recomputeFor_sansTargets _ _)), requestPass_sansPass]; rfl

theorem enterFault_sansCascade (c : Nat) (k : FaultKind) : (s.enterFault c k).sansCascade = s.sansCascade := by
  unfold State.enterFault
  extract_lets
  rw [sansClaims_cascade (sansTargets_claims (recomputeFor_sansTargets _ _)),
    sansPass_cascade (requestPass_sansPass _)]; rfl

/-! ### Links -/

theorem answerLast_sansLinks (l : Nat) (b : ReplyBody) : (s.answerLast l b).sansLinks = s.sansLinks := rfl

theorem answerWaiting_sansLinks (l k : Nat) (b : ReplyBody) : (s.answerWaiting l k b).sansLinks = s.sansLinks := rfl

theorem orphanHolds_sansTargets (l : Nat) : (s.orphanHolds l).sansTargets = s.sansTargets := by
  unfold State.orphanHolds
  extract_lets
  split
  · simp only [State.raiseDam, State.raise, State.sansTargets, State.sansLinks]; rfl
  · simp only [State.sansTargets, State.sansLinks]; rfl

theorem linkDown_sansClaims (l : Nat) : (s.linkDown l).sansClaims = s.sansClaims := by
  unfold State.linkDown
  rw [sansTargets_claims (orphanHolds_sansTargets _ _), abandonClaims_sansClaims]; rfl

theorem setLink_sansLinks (l : Nat) (x : Link) : (s.setLink l x).sansLinks = s.sansLinks := rfl

theorem clearOrphans_sansTargets (l : Nat) : (s.clearOrphans l).sansTargets = s.sansTargets := by
  unfold State.clearOrphans
  simp only [State.sansTargets, State.sansLinks]

theorem linkUp_sansClaims (l : Nat) : (s.linkUp l).sansClaims = s.sansClaims := by
  unfold State.linkUp
  extract_lets
  rw [sansTargets_claims (sansLinks_targets (setLink_sansLinks _ _ _)),
    sansTargets_claims (clearOrphans_sansTargets _ _), restoreClaims_sansClaims]
  rfl

theorem superviseFrame_sansClaims (l : Nat) : (s.superviseFrame l).sansClaims = s.sansClaims := by
  unfold State.superviseFrame
  extract_lets
  split
  · rfl
  · rw [linkUp_sansClaims]; rfl

end Sys2Proof.Machine
end

