-- ==== Sys2Proof/Laws/Exec.lean ====
section
/-! SUPPORT. What a command and a step can do, said once: the effect of every command, the taking of a frame, and the rounds of the
receiver. -/

namespace Sys2Proof.Machine

/-- The effect of a command on the state, where it is well formed. -/
def effect (c : Instr) (s : State) : State :=
  match requestOfCommand c with
  | some (l, tag, r) => s.takeFrame l tag r
  | none =>
    match c with
    | .powerOn => s.enterLoading .powerOn
    | .loadComplete => if s.mode == .loading then s.completeLoad else s
    | .clockWrap => if s.clock == Config.maxClock then s.enterLoading .restart else s
    | .gaugeReading g level good => s.takeReading g level good
    | .gaugeTimerExpiry g => if s.due (s.gauge g).timer then s.loseGauge g else s
    | .passTimerExpiry => if s.due s.pass.timer then s.expirePass else s
    | .routingUpkeep => if s.atStage .routing then s.routingStage else s
    | .baseForecast => if s.atStage .base then s.baseStage else s
    | .sweep => if s.atStage .sweep then s.sweepStage else s
    | .forcing => if s.atStage .forcing then s.forcingStage else s
    | .publish => if s.atStage .publish then s.publishStage else s
    | .passCompletion => if s.atStage .completion then s.completionStage else s
    | .positionReport c p => s.report c p
    | .tripAssertion c => s.assertTrip c
    | .tripRelease c => s.setTripLine c false
    | .rampStep c => s.ramp c
    | .trackingTimerExpiry c =>
      if (s.chan c).inService && s.due (s.chan c).trackTimer then s.enterFault c .tracking else s
    | .feedbackTimerExpiry c =>
      if (s.chan c).inService && s.due (s.chan c).feedbackTimer then s.enterFault c .noFeedback else s
    | .bringupTimerExpiry c =>
      if (s.chan c).state == .bringup && s.due (s.chan c).bringupTimer then s.enterFault c .bringupTimeout else s
    | .claimStartReached n => s.startReached n
    | .claimEndReached n => s.endReached n
    | .frameDiscarded l bytes => s.receive l bytes
    | .linkTimerExpiry l => if s.due (s.linkAt l).timer then s.linkDown l else s
    | .lineBreak l => s.lineBreak l
    | .frameSent l => s.endFrame l
    | .storeStepDone => { s with store := s.store.advance }
    | .storeComplete => { s with store := s.store.complete }
    | .storeFailure => s.failStore
    | _ => s

/-- Every meaning is its effect, guarded by the form of its operands. -/
theorem exec_eq (c : Instr) (s : State) : exec c s = command c (effect c s) := by cases c <;> rfl

theorem exec_of_wf {c : Instr} (s : State) (h : c.wf = true) : exec c s = .next (effect c s) := by
  rw [exec_eq, command, if_pos h]

theorem exec_next {c : Instr} {s t : State} (h : exec c s = .next t) : c.wf = true ∧ t = effect c s := by
  rw [exec_eq, command] at h
  split at h
  · next hw => exact ⟨hw, by simpa using h.symm⟩
  · simp at h

theorem effect_request {c : Instr} {l tag : Nat} {r : Request} (s : State)
    (h : requestOfCommand c = some (l, tag, r)) : effect c s = s.takeFrame l tag r := by
  simp [effect, h]

/-- A step takes the front command, or lets a second pass. -/
theorem step_next {s t : State} (h : step s = .next t) :
    (s.pending = [] ∧ t = s.tick) ∨
      ∃ c rest, s.pending = c :: rest ∧ c.wf = true ∧ t = effect c { s with pending := rest } := by
  unfold step at h
  split at h
  · next e => exact .inl ⟨e, by simpa using h.symm⟩
  · next c rest e => exact .inr ⟨c, rest, e, exec_next h⟩

/-- What every round of the receiver keeps, hunting keeps. -/
theorem hunt_keeps {P : State → Prop} (l : Nat) (hc : ∀ s rx, P s → P (s.collect l rx))
    (ht : ∀ s tag r, P s → P (s.takeFrame l tag r)) :
    ∀ (n : Nat) (bytes : List Byte) (s : State), P s → P (s.hunt n l bytes) := by
  intro n
  induction n with
  | zero => intro bytes s h; exact hc s _ h
  | succ n ih =>
    intro bytes s h
    match bytes with
    | [] => exact hc s _ h
    | b :: rest =>
      unfold State.hunt
      split
      · exact ih rest s h
      · split
        · exact hc s _ h
        · exact ih rest s h
        · split
          · exact ht s _ _ h
          · exact ih _ _ (ht s _ _ h)

/-- What taking a frame and collecting keep, the receipt of characters keeps. -/
theorem receive_keeps {P : State → Prop} (l : Nat) (hc : ∀ s rx, P s → P (s.collect l rx))
    (ht : ∀ s tag r, P s → P (s.takeFrame l tag r)) (bytes : List Byte) (s : State) (h : P s) :
    P (s.receive l bytes) :=
  hunt_keeps l hc ht _ _ s h

/-- What supervision, the joining of a request, its decision and its reply keep, the taking of a frame keeps. -/
theorem takeFrame_keeps {P : State → Prop} (s : State) (l tag : Nat) (r : Request)
    (hs : P (s.superviseFrame l)) (hl : ∀ t x, P t → P (t.setLink l x))
    (hd : ∀ t, P t → P (t.decideRequest l tag r).1) : P (s.takeFrame l tag r) := by
  unfold State.takeFrame
  extract_lets s1
  split
  · exact hl _ _ hs
  · have h := hd _ (hl _ ((s1.linkAt l).join r.replyKind tag) hs)
    unfold State.conclude
    split
    · exact hl _ _ h
    · exact h

end Sys2Proof.Machine
end

