-- ==== Sys2Proof/Laws/Channels.lean ====
section
/-! SUPPORT. A property of single channels that every update of a channel keeps holds of every channel after every step. The updates
are those of chapters 7 and 8; each stands with what the Controller knows when it makes it. -/

namespace Sys2Proof.Machine

/-- Does every channel of the state have the property? -/
def State.allChan (Q : Channel → Prop) (s : State) : Prop := ∀ c, Q (s.chan c)

/-- A property of a channel that every update keeps. -/
structure ChanClosed (Q : Channel → Prop) : Prop where
  reset : Q {}
  actual : ∀ x f, Q x → Q { x with actual := f }
  retarget : ∀ (s : State) sh c x, Q x → Q (s.retarget sh c x)
  orphan : ∀ x b, Q x → x.holder.isSome → Q { x with orphan := b }
  endHold : ∀ x, Q x → Q x.endHold
  trip : ∀ x, Q x → Q x.trip
  tripStep : ∀ x limit e, Q x → (x.setpoint.isSome → x.state = .tripped) → Q (x.tripStep limit e)
  bringup : ∀ x e, Q x → Q (x.startBringup e)
  place : ∀ x p flow, Q x → x.state = .bringup → p ≤ 1000 → Q (Channel.aimAt { x with measured := some p } p flow)
  wait : ∀ x, Q x → x.state = .bringup → x.setpoint.isSome → Q { x with waitMark := true, bringupTimer := none }
  enterReady : ∀ x a b, Q x → x.state = .bringup → x.setpoint.isSome → Q (x.enterReady a b)
  enterFault : ∀ x k, Q x → Q (x.enterFault k)
  tracked : ∀ x p a b, Q x → x.inService = true → p ≤ 1000 →
    Q { x with measured := some p, feedbackTimer := some a, trackTimer := b }
  tripped : ∀ x p e, Q x → x.state = .tripped → p ≤ 1000 → Q (Channel.firstTripped { x with measured := some p } p e)
  faulted : ∀ x p, Q x → x.state = .fault → p ≤ 1000 → Q { x with measured := some p }
  ramp : ∀ r e x, Q x → x.ramps = true → Q (Channel.rampStep r e x)
  openAt : ∀ x o f, Q x → x.holder.isSome → o ≤ 1000 → Q (x.openAt o f)
  takeHold : ∀ x l o f, Q x → (x.inService = true ∨ x.state = .fault) → o ≤ 1000 → Q (x.takeHold l o f)
  offline : ∀ x, Q x → Q { command := x.command, commandCount := x.commandCount }

section
variable {Q : Channel → Prop} (hQ : ChanClosed Q) {s : State}

seal gen0 gen1 put0 put1 get0 get1

/-! ### Updates that write no channel -/

@[simp] theorem raiseDam_channels (c : Condition) (k : Nat) : (s.raiseDam c k).channels = s.channels := rfl
@[simp] theorem raiseOwner_channels (c : Condition) (o : Nat) : (s.raiseOwner c o).channels = s.channels := rfl
@[simp] theorem raiseAll_channels (c : Condition) : (s.raiseAll c).channels = s.channels := rfl
@[simp] theorem changeMode_channels (m : Mode) : (s.changeMode m).channels = s.channels := rfl
@[simp] theorem answerLast_channels (l : Nat) (b : ReplyBody) : (s.answerLast l b).channels = s.channels := rfl
@[simp] theorem answerWaiting_channels (l k : Nat) (b : ReplyBody) : (s.answerWaiting l k b).channels = s.channels := rfl
@[simp] theorem addGrant_channels (c : Claim) (g u : Nat) (e : Forecast → Nat) :
    (s.addGrant c g u e).channels = s.channels := adjust_channels s _
@[simp] theorem removeGrant_channels (c : Claim) (g u : Nat) (e : Forecast → Nat) :
    (s.removeGrant c g u e).channels = s.channels := adjust_channels s _
@[simp] theorem enter_channels (n : Nat) (c : Claim) : (s.enter n c).channels = s.channels := rfl
@[simp] theorem enterWaiting_channels (c : Claim) : (s.enterWaiting c).channels = s.channels := updateClaim_channels s _ _
@[simp] theorem startGauges_channels : s.startGauges.channels = s.channels := rfl
@[simp] theorem activateRouting_channels (t : TableSet) : (s.activateRouting t).channels = s.channels := rfl
@[simp] theorem activateBands_channels : s.activateBands.channels = s.channels := rfl
@[simp] theorem beginStore_channels : s.beginStore.channels = s.channels := rfl

@[simp] theorem ok_fst : s.ok.1 = s := rfl
@[simp] theorem refuse_fst (c : Status) : (s.refuse c).1 = s := rfl

theorem allChan_of_channels {t : State} (h : t.channels = s.channels) (hs : s.allChan Q) : t.allChan Q := by
  intro c
  have e : t.chan c = s.chan c := by unfold State.chan; rw [h]
  rw [e]; exact hs c

theorem allChan_setChan {c : Nat} {x : Channel} (hs : s.allChan Q) (hx : Q x) : (s.setChan c x).allChan Q := by
  intro d
  rw [setChan_chan]
  split
  · exact hx
  · exact hs d

include hQ in
theorem allChan_gen {f : Nat → Channel} (t : State) (ht : t.channels = gen0 f) (h : ∀ c < 32, Q (f c)) :
    t.allChan Q := by
  intro c
  unfold State.chan
  rw [ht, get0_gen0]
  split
  · exact h c (by assumption)
  · exact hQ.reset

/-! ### Flows, targets and passes -/

include hQ in
theorem allChan_setActualIn (hs : s.allChan Q) (t : TableSet) (c f : Nat) : (s.setActualIn t c f).allChan Q :=
  allChan_of_channels (setActualIn_channels s t c f) (allChan_setChan hs (hQ.actual _ f (hs c)))

include hQ in
theorem allChan_reformFlow (hs : s.allChan Q) (c : Nat) : (s.reformFlow c).allChan Q := by
  unfold State.reformFlow
  split
  · exact allChan_setActualIn hQ hs _ _ _
  · exact hs

/-- A fold keeps what its steps keep. -/
theorem foldl_inv {α : Type} (P : State → Prop) {f : State → α → State} (h : ∀ s a, P s → P (f s a)) :
    ∀ (l : List α) (s : State), P s → P (l.foldl f s)
  | [], _, hs => hs
  | a :: l, s, hs => foldl_inv P h l (f s a) (h s a hs)

theorem allChan_foldl {α : Type} {f : State → α → State} (h : ∀ s a, s.allChan Q → (f s a).allChan Q) (l : List α)
    (hs : s.allChan Q) : (l.foldl f s).allChan Q :=
  foldl_inv (State.allChan Q) h l s hs

include hQ in
theorem allChan_reformDam (hs : s.allChan Q) (k : Nat) : (s.reformDam k).allChan Q := by
  unfold State.reformDam
  exact allChan_foldl (fun _ c h => allChan_reformFlow hQ h c) _ hs

theorem recompute_channels (k : Nat) : (s.recompute k).channels =
    gen0 fun c => if s.active.inDam k c then s.retarget (s.spillShares k) c (s.chan c) else s.chan c := by
  unfold State.recompute
  extract_lets
  split <;> rfl

include hQ in
theorem allChan_recompute (hs : s.allChan Q) (k : Nat) : (s.recompute k).allChan Q := by
  refine allChan_gen hQ _ (recompute_channels k) fun c _ => ?_
  split
  · exact hQ.retarget s _ c _ (hs c)
  · exact hs c

include hQ in
theorem allChan_handover (hs : s.allChan Q) {c : Nat} {x : Channel} (hx : Q x) : (s.handover c x).allChan Q :=
  allChan_recompute hQ (allChan_setChan hs hx) _

include hQ in
theorem allChan_levelNotice (hs : s.allChan Q) (b : Tab 6 Nat) : (s.levelNotice b).allChan Q := by
  unfold State.levelNotice
  refine allChan_foldl (fun t k h => ?_) _ hs
  split
  · exact h
  · exact allChan_recompute hQ (allChan_reformDam hQ h k) k

@[simp] theorem evaluateLost_channels : s.evaluateLost.channels = s.channels :=
  congrArg (·.channels) (evaluateLost_sansLinks s)

include hQ in
theorem allChan_takeBases (hs : s.allChan Q) : s.takeBases.allChan Q := by
  unfold State.takeBases
  extract_lets
  refine allChan_levelNotice hQ (allChan_of_channels (s := s) ?_ hs) _
  rw [evaluateLost_channels]

include hQ in
theorem allChan_startPass (hs : s.allChan Q) : s.startPass.allChan Q := by
  unfold State.startPass
  extract_lets
  split
  · exact allChan_of_channels (s := s) rfl hs
  · refine allChan_takeBases hQ ?_
    exact allChan_of_channels (s := s) rfl hs

include hQ in
theorem allChan_requestPass (hs : s.allChan Q) : s.requestPass.allChan Q := by
  unfold State.requestPass
  split
  · exact hs
  · split
    · exact allChan_of_channels (s := s) (by simp) hs
    · exact allChan_startPass hQ hs

include hQ in
theorem allChan_reexamine (hs : s.allChan Q) : s.reexamine.allChan Q := by
  unfold State.reexamine
  split
  · exact allChan_takeBases hQ hs
  · exact hs

/-! ### Claims -/

@[simp] theorem adjustConstant_channels (k : Nat) (x : Int) : (s.adjustConstant k x).channels = s.channels := by
  unfold State.adjustConstant
  split <;> rfl

@[simp] theorem decayFor_channels (c : Claim) : (s.decayFor c).channels = s.channels := by
  unfold State.decayFor
  split
  · unfold State.decay
    extract_lets
    rw [adjustConstant_channels]; rfl
  · rfl

include hQ in
theorem allChan_removeClaim (hs : s.allChan Q) (c : Claim) : (s.removeClaim c).allChan Q := by
  unfold State.removeClaim
  extract_lets t
  have ht : t.allChan Q := allChan_of_channels (decayFor_channels c) (allChan_of_channels (s := s) (by simp) hs)
  split
  · exact allChan_recompute hQ ht _
  · exact ht

include hQ in
theorem allChan_endClaim (hs : s.allChan Q) (c : Claim) : (s.endClaim c).allChan Q := by
  unfold State.endClaim
  split
  · extract_lets t
    have ht : t.allChan Q := allChan_of_channels (s := s) rfl hs
    split
    · exact allChan_recompute hQ ht _
    · exact ht
  · extract_lets t
    have ht : t.allChan Q := allChan_removeClaim hQ hs c
    split
    · exact allChan_of_channels (s := t) (by simp) ht
    · exact ht

include hQ in
theorem allChan_endIfReached (hs : s.allChan Q) (h : Nat) : (s.endIfReached h).allChan Q := by
  unfold State.endIfReached
  split
  · split
    · exact allChan_endClaim hQ hs _
    · exact hs
  · exact hs

include hQ in
theorem allChan_abandonClaims (hs : s.allChan Q) (l : Nat) : (s.abandonClaims l).allChan Q := by
  unfold State.abandonClaims
  extract_lets
  refine allChan_foldl (fun t c h => allChan_endIfReached hQ h _) _ ?_
  refine allChan_foldl (fun t c h => allChan_of_channels (s := t) (by simp) h) _ ?_
  exact allChan_foldl (fun t c h => allChan_of_channels (s := t) (by simp) h) _ hs

theorem allChan_restoreClaims (hs : s.allChan Q) (l : Nat) : (s.restoreClaims l).allChan Q := by
  unfold State.restoreClaims
  extract_lets
  refine allChan_foldl (fun t c h => allChan_of_channels (s := t) (by simp) h) _ ?_
  exact allChan_foldl (fun t c h => allChan_of_channels (s := t) (by simp) h) _ hs

include hQ in
theorem allChan_evaluateArrival (hs : s.allChan Q) (c : Claim) : (s.evaluateArrival c).allChan Q := by
  unfold State.evaluateArrival
  extract_lets f r s1 s2
  have h2 : s2.allChan Q := by
    unfold s2
    split
    · refine allChan_recompute hQ ?_ _
      exact allChan_of_channels (s := s1) (by simp) (allChan_of_channels (s := s) rfl hs)
    · exact allChan_of_channels (s := s) rfl hs
  split
  · exact allChan_requestPass hQ h2
  · exact h2

include hQ in
theorem allChan_admitRequest (hs : s.allChan Q) (l : Nat) (cls : MasterClass) (a : Nat) (r : ClaimRequest) :
    (s.admitRequest l cls a r).1.allChan Q := by
  unfold State.admitRequest
  split
  · exact hs
  · extract_lets c s1 s2
    have h2 : s2.allChan Q := by
      unfold s2
      split
      · refine allChan_evaluateArrival hQ ?_ _
        exact allChan_of_channels (s := s) rfl hs
      · exact allChan_of_channels (s := s) rfl hs
    split
    · exact allChan_endIfReached hQ h2 _
    · exact h2

/-! ### Trips, bring-up and faults -/

theorem reportTrip_target (k u flow : Nat) : ∃ t : State, t.channels = s.channels ∧ s.reportTrip k u flow = t.recompute k := by
  unfold State.reportTrip
  extract_lets grants s1 s2
  refine ⟨s2, ?_, rfl⟩
  have h1 : s1.channels = s.channels :=
    Eq.trans rfl (foldl_keeps State.channels (fun s c => s.removeGrant c c.grant s.clock c.endIn) (fun _ _ => rfl) _ s)
  unfold s2
  split
  · unfold State.compensate
    extract_lets wanted limit given t1
    have ht : t1.channels = s1.channels := by
      unfold t1
      split <;> rfl
    split
    · rw [ht, h1]
    · rw [adjustConstant_channels]
      exact ht.trans h1
  · exact h1

include hQ in
theorem allChan_reportTrip (hs : s.allChan Q) (k u flow : Nat) : (s.reportTrip k u flow).allChan Q := by
  obtain ⟨t, ht, e⟩ := reportTrip_target (s := s) k u flow
  rw [e]
  exact allChan_recompute hQ (allChan_of_channels ht hs) k

/-- A property that says a channel is tripped once it has a setpoint. -/
theorem trippedClosed_retarget (s : State) (sh : List Share × Bool) (c : Nat) (x : Channel) (h : x.state = .tripped) :
    (s.retarget sh c x).state = .tripped := by
  unfold State.retarget
  simp only [h]
  exact h

/-- The state of one channel through the recomputes and passes that follow a trip. -/
theorem recompute_state_tripped (k c : Nat) (h : (s.chan c).state = .tripped) : ((s.recompute k).chan c).state = .tripped := by
  by_cases hc : c < 32
  · have e : (s.recompute k).chan c =
        if s.active.inDam k c then s.retarget (s.spillShares k) c (s.chan c) else s.chan c := by
      unfold State.chan
      rw [recompute_channels, get0_gen0_lt _ hc]; rfl
    rw [e]
    split
    · exact trippedClosed_retarget s _ c _ h
    · exact h
  · have e : s.chan c = {} := get0_ge _ (by omega)
    rw [e] at h
    cases h

theorem setActualIn_chan_state (t : TableSet) (c f d : Nat) :
    ((s.setActualIn t c f).chan d).state = (s.chan d).state := by
  have e : (s.setActualIn t c f).chan d = (s.setChan c { s.chan c with actual := f }).chan d := by
    unfold State.chan
    rw [setActualIn_channels]; rfl
  rw [e, setChan_chan]
  split
  · next h => rw [h.1]
  · rfl

theorem reformFlow_chan_state (c d : Nat) : ((s.reformFlow c).chan d).state = (s.chan d).state := by
  unfold State.reformFlow
  split
  · exact setActualIn_chan_state _ _ _ _
  · rfl

theorem levelNotice_tripped (b : Tab 6 Nat) (c : Nat) (h : (s.chan c).state = .tripped) :
    ((s.levelNotice b).chan c).state = .tripped := by
  unfold State.levelNotice
  refine foldl_inv (fun t => (t.chan c).state = .tripped) (fun t k ht => ?_) _ _ h
  split
  · exact ht
  · refine recompute_state_tripped _ _ ?_
    exact foldl_inv (fun t => (t.chan c).state = .tripped)
      (fun u d hu => (reformFlow_chan_state (s := u) d c).trans hu) _ _ ht

theorem requestPass_tripped (c : Nat) (h : (s.chan c).state = .tripped) : (s.requestPass.chan c).state = .tripped := by
  have bases : ∀ t : State, (t.chan c).state = .tripped → (t.takeBases.chan c).state = .tripped := by
    intro t ht
    unfold State.takeBases
    extract_lets
    refine levelNotice_tripped _ _ ?_
    unfold State.chan at ht ⊢
    rw [evaluateLost_channels]
    exact ht
  unfold State.requestPass
  split
  · exact h
  · split
    · exact h
    · unfold State.startPass
      extract_lets _ t
      split
      · exact h
      · exact bases t h

include hQ in
theorem allChan_trip (hs : s.allChan Q) (c : Nat) : (s.trip c).allChan Q := by
  unfold State.trip
  extract_lets r k flow s1 s2
  have h1 : s1.allChan Q :=
    allChan_of_channels (s := s.setChan c (s.chan c).trip) rfl (allChan_setChan hs (hQ.trip _ (hs c)))
  have h2 : s2.allChan Q := allChan_requestPass hQ (allChan_reportTrip hQ h1 _ _ _)
  refine allChan_setChan h2 (hQ.tripStep _ _ _ (h2 c) fun hsp => ?_)
  by_cases hc : c < 32
  · refine requestPass_tripped c ?_
    obtain ⟨t, ht, e⟩ := reportTrip_target (s := s1) k c flow
    rw [e]
    refine recompute_state_tripped _ _ ?_
    have e1 : t.chan c = s1.chan c := by unfold State.chan; rw [ht]
    have e2 : s1.chan c = (s.chan c).trip := setChan_chan_same s _ hc
    rw [e1, e2]; rfl
  · have e : s2.chan c = {} := get0_ge _ (by omega)
    rw [e] at hsp
    cases hsp

include hQ in
theorem allChan_startBringup (hs : s.allChan Q) (c : Nat) : (s.startBringup c).allChan Q := by
  unfold State.startBringup
  extract_lets r off s1
  have h1 : s1.allChan Q := allChan_handover hQ hs (hQ.bringup _ _ (hs c))
  split
  · exact allChan_trip hQ h1 c
  · exact h1

include hQ in
theorem allChan_bringUpAll (hs : s.allChan Q) : s.bringUpAll.allChan Q := by
  unfold State.bringUpAll
  exact allChan_foldl (fun _ c h => allChan_startBringup hQ h c) _ hs

include hQ in
theorem allChan_enterReady (hs : s.allChan Q) (c : Nat) (hb : (s.chan c).state = .bringup)
    (hsp : (s.chan c).setpoint.isSome) : (s.enterReady c).allChan Q := by
  unfold State.enterReady
  extract_lets
  exact allChan_recompute hQ (allChan_requestPass hQ
    (allChan_setChan hs (hQ.enterReady _ _ _ (hs c) hb hsp))) _

include hQ in
theorem allChan_enterFault (hs : s.allChan Q) (c : Nat) (k : FaultKind) : (s.enterFault c k).allChan Q := by
  unfold State.enterFault
  extract_lets
  refine allChan_recompute hQ (allChan_requestPass hQ ?_) _
  exact allChan_of_channels (s := s.setChan c ((s.chan c).enterFault k)) rfl
    (allChan_setChan hs (hQ.enterFault _ _ (hs c)))

/-! ### Reports, ramp steps and trips as events -/

theorem clampPosition_le (p : Int) : clampPosition p ≤ 1000 := by
  unfold clampPosition
  omega

theorem setActualIn_chan_setpoint (t : TableSet) (c f d : Nat) :
    ((s.setActualIn t c f).chan d).setpoint = (s.chan d).setpoint := by
  have e : (s.setActualIn t c f).chan d = (s.setChan c { s.chan c with actual := f }).chan d := by
    unfold State.chan
    rw [setActualIn_channels]; rfl
  rw [e, setChan_chan]
  split
  · next h => rw [h.1]
  · rfl

theorem reformFlow_chan_setpoint (c d : Nat) : ((s.reformFlow c).chan d).setpoint = (s.chan d).setpoint := by
  unfold State.reformFlow
  split
  · exact setActualIn_chan_setpoint _ _ _ _
  · rfl

theorem chan_lt {c : Nat} (h : (s.chan c).state ≠ .offline) : c < 32 := by
  by_cases hc : c < 32
  · exact hc
  · exact absurd (congrArg Channel.state (get0_ge s.channels (by omega) : s.chan c = {})) h

include hQ in
theorem allChan_report (hs : s.allChan Q) (c : Nat) (p : Int) : (s.report c p).allChan Q := by
  have hp := clampPosition_le p
  have tracked : (s.chan c).inService = true → (s.trackedReport c (clampPosition p)).allChan Q := fun h =>
    allChan_reformFlow hQ (allChan_setChan hs (hQ.tracked _ _ _ _ (hs c) h hp)) _
  unfold State.report
  split
  · exact hs
  · next hb =>
    split
    · have hc : c < 32 := chan_lt (by rw [hb]; decide)
      have h1 : (s.placeAt c (clampPosition p)).allChan Q :=
        allChan_reformFlow hQ (allChan_setChan hs (hQ.place _ _ _ (hs c) hb hp)) _
      have e1 : ((s.placeAt c (clampPosition p)).chan c).state = .bringup := by
        unfold State.placeAt
        rw [reformFlow_chan_state, setChan_chan_same s _ hc]; exact hb
      have e2 : ((s.placeAt c (clampPosition p)).chan c).setpoint.isSome := by
        unfold State.placeAt
        rw [reformFlow_chan_setpoint, setChan_chan_same s _ hc]; rfl
      unfold State.bringupReport
      extract_lets
      split
      · exact allChan_setChan h1 (hQ.wait _ (h1 c) e1 e2)
      · exact allChan_enterReady hQ h1 c e1 e2
    · exact hs
  · next h =>
    split
    · exact tracked (by simp [Channel.inService, h])
    · exact allChan_enterFault hQ hs _ _
  · next h =>
    split
    · exact tracked (by simp [Channel.inService, h])
    · exact allChan_enterFault hQ hs _ _
  · next h =>
    split
    · exact allChan_reformFlow hQ (allChan_setChan hs (hQ.tripped _ _ _ (hs c) h hp)) _
    · exact hs
  · next h =>
    split
    · exact allChan_setChan hs (hQ.faulted _ _ (hs c) h hp)
    · exact hs

include hQ in
theorem allChan_assertTrip (hs : s.allChan Q) (c : Nat) : (s.assertTrip c).allChan Q := by
  unfold State.assertTrip
  split
  · exact hs
  · extract_lets t
    have ht : t.allChan Q := allChan_of_channels (s := s) rfl hs
    split
    · exact allChan_trip hQ ht c
    · exact ht

include hQ in
theorem allChan_ramp (hs : s.allChan Q) (c : Nat) : (s.ramp c).allChan Q := by
  unfold State.ramp
  split
  · next h =>
    simp only [Bool.and_eq_true] at h
    extract_lets r x
    have hx := allChan_setChan hs (hQ.ramp r (s.clock + r.rampInterval) _ (hs c) h.1) (c := c)
    split
    · exact hx
    · exact allChan_recompute hQ hx _
  · exact hs

/-! ### Links -/

include hQ in
theorem allChan_orphanHolds (hs : s.allChan Q) (l : Nat) : (s.orphanHolds l).allChan Q := by
  have h : ∀ t : State, t.channels = (gen0 fun c =>
      if (s.chan c).holder == some l then { s.chan c with orphan := true } else s.chan c) → t.allChan Q := by
    intro t ht
    refine allChan_gen hQ t ht fun c _ => ?_
    split
    · next hl => exact hQ.orphan _ _ (hs c) (by rw [beq_iff_eq] at hl; rw [hl]; rfl)
    · exact hs c
  unfold State.orphanHolds
  extract_lets
  split
  · exact h _ rfl
  · exact h _ rfl

include hQ in
theorem allChan_clearOrphans (hs : s.allChan Q) (l : Nat) : (s.clearOrphans l).allChan Q := by
  unfold State.clearOrphans
  refine allChan_gen hQ _ rfl fun c _ => ?_
  split
  · next hl => exact hQ.orphan _ _ (hs c) (by rw [beq_iff_eq] at hl; rw [hl]; rfl)
  · exact hs c

include hQ in
theorem allChan_linkDown (hs : s.allChan Q) (l : Nat) : (s.linkDown l).allChan Q := by
  unfold State.linkDown
  refine allChan_orphanHolds hQ (allChan_abandonClaims hQ (allChan_of_channels (s := s) ?_ hs) l) l
  simp

include hQ in
theorem allChan_linkUp (hs : s.allChan Q) (l : Nat) : (s.linkUp l).allChan Q := by
  unfold State.linkUp
  extract_lets _ t
  refine allChan_of_channels (s := t) (by simp) (allChan_clearOrphans hQ (allChan_restoreClaims ?_ l) l)
  exact allChan_of_channels (s := s) (by simp) hs

include hQ in
theorem allChan_superviseFrame (hs : s.allChan Q) (l : Nat) : (s.superviseFrame l).allChan Q := by
  unfold State.superviseFrame
  extract_lets x t
  have ht : t.allChan Q := allChan_of_channels (s := s) rfl hs
  split
  · exact ht
  · exact allChan_linkUp hQ ht l

/-! ### Modes -/

include hQ in
theorem allChan_enterLoading (cause : ResetCause) : (s.enterLoading cause).allChan Q := by
  intro c
  have e : (s.enterLoading cause).chan c = {} := by
    unfold State.chan
    by_cases hc : c < 32
    · show get0 (Vector.replicate 32 ({} : Channel)) c = {}
      simp [get0, hc]
    · exact get0_ge _ (by omega)
  rw [e]; exact hQ.reset

include hQ in
theorem allChan_activateFresh (hs : s.allChan Q) (t : TableSet) : (s.activateFresh t).allChan Q := by
  have h : ∀ u : State, u.channels = s.channels → u.firstHold.allChan Q := by
    intro u hu
    unfold State.firstHold
    extract_lets v
    have hv : v.allChan Q := allChan_of_channels
      (s := (u.changeMode .hold).bringUpAll) rfl
      (allChan_bringUpAll hQ (allChan_of_channels (s := u) (by simp) (allChan_of_channels hu hs)))
    split
    · exact hv
    · exact allChan_startPass hQ hv
  exact h _ rfl

include hQ in
theorem allChan_activateChannels (hs : s.allChan Q) (old : TableSet) : (s.activateChannels old).allChan Q := by
  unfold State.activateChannels
  extract_lets s1 s2 s3
  have h1 : s1.allChan Q := by
    refine allChan_foldl (fun t c h => ?_) _ hs
    unfold State.placeOffline
    extract_lets t'
    have ht : t'.allChan Q := allChan_setActualIn hQ h old c 0
    exact allChan_setChan ht (hQ.offline _ (ht c))
  have h2 : s2.allChan Q := by
    refine allChan_foldl (fun t c h => ?_) _ h1
    unfold State.dropForeignHold
    split
    · split
      · exact h
      · exact allChan_setChan h (hQ.endHold _ (h c))
    · exact h
  have h3 : s3.allChan Q := allChan_foldl (fun t c h => allChan_reformFlow hQ h c) _ h2
  exact allChan_foldl (fun t k h => allChan_recompute hQ h k) _ h3

@[simp] theorem activateAllocator_channels (old : TableSet) : (s.activateAllocator old).channels = s.channels := by
  unfold State.activateAllocator
  extract_lets gone
  refine (foldl_keeps State.channels State.replan (fun t k => ?_) _ _).trans
    (foldl_keeps State.channels State.removeAtActivation (fun t c => ?_) _ _)
  · unfold State.replan
    extract_lets
    rw [adjustConstant_channels]; rfl
  · exact (decayFor_channels (s := _) c).trans rfl

@[simp] theorem activateGauges_channels (old : TableSet) : (s.activateGauges old).channels = s.channels := by
  unfold State.activateGauges
  extract_lets
  exact (foldl_keeps State.channels State.evaluateBand
    (fun t k => congrArg (·.channels) (evaluateBand_sansLinks t k)) _ _).trans rfl

include hQ in
theorem allChan_activateService (hs : s.allChan Q) : s.activateService.allChan Q := by
  unfold State.activateService
  extract_lets old new s0 s1
  have h0 : s0.allChan Q := allChan_of_channels (s := s) rfl hs
  have hg : (((s0.activateAllocator old).activateRouting old).activateGauges old).allChan Q :=
    allChan_of_channels (activateGauges_channels old)
      (allChan_of_channels (s := s0.activateAllocator old) (by simp)
        (allChan_of_channels (activateAllocator_channels old) h0))
  have h1 : s1.allChan Q := allChan_activateChannels hQ hg old
  exact allChan_requestPass hQ (allChan_bringUpAll hQ (allChan_of_channels (s := s1) (by simp) h1))

include hQ in
theorem allChan_completionStage (hs : s.allChan Q) : s.completionStage.allChan Q := by
  unfold State.completionStage
  have h1 : (s.active.damNumbers.foldl State.recompute s).allChan Q :=
    allChan_foldl (fun t k h => allChan_recompute hQ h k) _ hs
  have h2 : (s.active.damNumbers.foldl State.recompute s).drain.allChan Q := by
    unfold State.drain
    refine allChan_foldl (fun t e h => ?_) _ (allChan_of_channels (s := s.active.damNumbers.foldl State.recompute s) (by simp) h1)
    unfold State.drainEntry
    extract_lets r
    have hr : r.1.allChan Q := by
      unfold r
      split
      · exact h
      · exact allChan_admitRequest hQ h _ _ _ _
    exact allChan_of_channels (s := r.1) (by simp) hr
  have h3 : ((s.active.damNumbers.foldl State.recompute s).drain).makeActivations.allChan Q := by
    unfold State.makeActivations
    refine allChan_foldl (fun t l h => ?_) _
      (allChan_of_channels (s := (s.active.damNumbers.foldl State.recompute s).drain) (by simp) h2)
    unfold State.makeWaiting
    split
    · exact allChan_of_channels (s := t) (by simp) h
    · split
      · exact allChan_of_channels (s := t) (by simp) h
      · exact allChan_of_channels (s := t.activateService) (by simp) (allChan_activateService hQ h)
  unfold State.examineAgain
  split
  · exact allChan_startPass hQ (allChan_of_channels (s := _) (by simp) h3)
  · exact allChan_of_channels (s := _) (by simp) h3

/-! ### Requests -/

include hQ in
theorem allChan_takeHold (hs : s.allChan Q) (l c : Nat)
    (h : (s.chan c).inService = true ∨ (s.chan c).state = .fault)
    (hsp : ∀ x, Q x → ∀ o, x.setpoint = some o → o ≤ 1000) : (s.takeHold l c).allChan Q := by
  unfold State.takeHold
  extract_lets o x
  have ho : o ≤ 1000 := by
    unfold o State.holdOpening
    cases e : (s.chan c).setpoint with
    | none => simp only [Option.getD_none]; omega
    | some v => simpa using hsp _ (hs c) v e
  have hf : (s.countFree c).allChan Q := by
    unfold State.countFree
    split
    · exact allChan_of_channels (s := s) (by simp) hs
    · exact hs
  exact allChan_requestPass hQ (allChan_handover hQ hf (hQ.takeHold _ l _ _ (hs c) h ho))

include hQ in
theorem allChan_handOn (hsp : ∀ x, Q x → ∀ o, x.setpoint = some o → o ≤ 1000)
    (hwait : ∀ x, Q x → x.waitMark = true → x.setpoint.isSome) (hs : s.allChan Q) (l tag : Nat) (r : Request) :
    (s.handOn l tag r).1.allChan Q := by
  cases r with
  | ping => exact hs
  | release b =>
    show (s.doRelease l tag b).1.allChan Q
    unfold State.doRelease
    split
    · exact hs
    · split
      · exact allChan_of_channels (s := s) (by simp) hs
      · exact allChan_admitRequest hQ hs _ _ _ _
  | withdraw h =>
    show (s.doWithdraw l h).1.allChan Q
    unfold State.doWithdraw
    split
    · exact hs
    · split
      · exact hs
      · split
        · exact allChan_of_channels (s := s) rfl hs
        · next c _ _ _ =>
          show (s.withdrawNow l c).allChan Q
          unfold State.withdrawNow
          extract_lets t
          have ht : t.allChan Q := allChan_removeClaim hQ (allChan_of_channels (s := s) (by simp) hs) c
          split
          · exact allChan_of_channels (s := t) (by simp) ht
          · exact ht
  | declareInflow k rates =>
    refine allChan_requestPass hQ ?_
    exact allChan_of_channels (s := s) rfl hs
  | takeLocal i =>
    show (s.doTake l (s.channelOf l i)).1.allChan Q
    unfold State.doTake
    split
    · exact hs
    · split <;> exact hs
    · exact hs
    · exact hs
    · next h _ => exact allChan_takeHold hQ hs _ _ (.inl (by simp [Channel.inService, h])) hsp
    · next h _ => exact allChan_takeHold hQ hs _ _ (.inl (by simp [Channel.inService, h])) hsp
    · next h _ => exact allChan_takeHold hQ hs _ _ (.inr h) hsp
  | setOpening i o =>
    show (s.doSetOpening l (s.channelOf l i) o).1.allChan Q
    unfold State.doSetOpening
    have ho : clampOpening o ≤ 1000 := by unfold clampOpening; omega
    split
    · exact hs
    · next h hh =>
      have hset : (s.setLocal (s.channelOf l i) (clampOpening o)).allChan Q :=
        allChan_setChan hs (hQ.openAt _ _ _ (hs _) (by rw [hh]; rfl) ho)
      split
      · exact hs
      · split
        · exact hset
        · exact hset
        · exact hset
        · exact hs
        · exact hs
        · exact hs
  | releaseLocal i =>
    show (s.doReleaseLocal l (s.channelOf l i)).1.allChan Q
    unfold State.doReleaseLocal
    split
    · exact hs
    · split
      · exact allChan_requestPass hQ (allChan_handover hQ hs (hQ.endHold _ (hs _)))
      · exact hs
  | clearFault i =>
    show (s.doClearFault (s.channelOf l i)).1.allChan Q
    unfold State.doClearFault
    split
    · exact allChan_startBringup hQ hs _
    · exact hs
  | resetTrip i =>
    show (s.doResetTrip (s.channelOf l i)).1.allChan Q
    unfold State.doResetTrip
    split
    · exact allChan_startBringup hQ hs _
    · exact hs
  | bringUp i =>
    show (s.doBringUp (s.channelOf l i)).1.allChan Q
    unfold State.doBringUp
    split
    · next h =>
      simp only [Bool.and_eq_true, beq_iff_eq] at h
      exact allChan_enterReady hQ hs _ h.1 (hwait _ (hs _) h.2)
    · exact hs
  | query k i =>
    show (s.afterQuery k).allChan Q
    unfold State.afterQuery
    split
    · exact allChan_of_channels (s := s) (by simp) hs
    · exact hs
  | readConditions => exact allChan_of_channels (s := s) rfl hs
  | setMask m => exact allChan_of_channels (s := s) rfl hs
  | resume =>
    refine allChan_requestPass hQ ?_
    exact allChan_of_channels (s := s) rfl hs
  | hold =>
    refine allChan_requestPass hQ ?_
    exact allChan_of_channels (s := s) rfl hs
  | enterService => exact allChan_of_channels (s := s) rfl hs
  | leaveService =>
    show (s.doLeaveService l).1.allChan Q
    unfold State.doLeaveService
    split
    · exact hs
    · split
      · exact allChan_activateFresh hQ hs _
      · split
        · exact allChan_of_channels (s := s) rfl hs
        · rw [ok_fst]
          exact allChan_activateService hQ hs
  | writeTable r i =>
    have e : (s.doWriteTable r i).1.channels = s.channels := by
      unfold State.doWriteTable
      generalize typedRecord r = o
      cases o <;> rfl
    exact allChan_of_channels (s := s) e hs
  | storeSettings =>
    show s.doStore.1.allChan Q
    unfold State.doStore
    split
    · exact hs
    · exact hs
  | restart => exact allChan_enterLoading hQ _
  | unknown k => exact hs

include hQ in
theorem allChan_takeFrame (hsp : ∀ x, Q x → ∀ o, x.setpoint = some o → o ≤ 1000)
    (hwait : ∀ x, Q x → x.waitMark = true → x.setpoint.isSome) (hs : s.allChan Q) (l tag : Nat) (r : Request) :
    (s.takeFrame l tag r).allChan Q := by
  refine takeFrame_keeps s l tag r (allChan_superviseFrame hQ hs l)
    (fun t x h => allChan_of_channels (s := t) (by simp) h) (fun t h => ?_)
  unfold State.decideRequest
  split
  · exact h
  · exact allChan_handOn hQ hsp hwait h l tag r

/-! ### Steps -/

theorem tick_channels : s.tick.channels = s.channels := by
  unfold State.tick
  split <;> rfl

theorem routingStage_channels : s.routingStage.channels = s.channels := rfl

theorem baseStage_channels : s.baseStage.channels = s.channels := by
  unfold State.baseStage
  extract_lets d _ t
  exact (foldl_keeps State.channels State.reformPool (fun _ _ => rfl) s.active.damNumbers t).trans rfl

theorem sweepStage_channels : s.sweepStage.channels = s.channels := by
  unfold State.sweepStage
  extract_lets t
  have ht : t.channels = s.channels := by
    unfold t
    split
    · refine foldl_keeps State.channels State.sweepClaim (fun u c => ?_) _ s
      unfold State.sweepClaim
      extract_lets f r u'
      split
      · rfl
      · split <;> rfl
    · rfl
  exact ht

theorem forceDam_channels (k : Nat) : (s.forceDam k).channels = s.channels := by
  unfold State.forceDam
  extract_lets need cap set _ w s1 s2
  have h1 : s1.channels = s.channels := by
    unfold s1
    split
    · exact raiseDam_channels _ _
    · rfl
  have h2 : s2.channels = s.channels := by
    unfold s2
    simpa only [State.reformPool, State.setPassPool, State.setWorkDam] using h1
  split
  · simpa only [State.reformPool, State.setPassPool] using h2
  · exact h2

theorem forcingStage_channels : s.forcingStage.channels = s.channels := by
  unfold State.forcingStage
  extract_lets s1 s2
  have h1 : s1.channels = s.channels := foldl_keeps State.channels State.forceDam (fun t k => forceDam_channels (s := t) k) _ s
  have h2 : s2.channels = s1.channels := by
    unfold s2
    split <;> rfl
  exact h2.trans h1

theorem publishStage_channels : s.publishStage.channels = s.channels := by
  unfold State.publishStage
  extract_lets settled removed kept pools s1 plans s2 s3 s4 s5 s6
  have h3 : s3.channels = s2.channels := by
    refine foldl_keeps State.channels State.correctClaim (fun t c => ?_) settled s2
    unfold State.correctClaim
    extract_lets g e
    split
    · rfl
    · split
      · rfl
      · split <;> rfl
  have h4 : s4.channels = s3.channels :=
    foldl_keeps State.channels State.correctConstant (fun t k => adjustConstant_channels (s := t) k _) s.active.damNumbers s3
  have h5 : s5.channels = s4.channels := by
    refine foldl_keeps State.channels (fun t k => State.startedLatch t s.plans k) (fun t k => ?_) s.active.damNumbers s4
    unfold State.startedLatch
    split <;> rfl
  have h6 : s6.channels = s5.channels :=
    foldl_keeps State.channels (fun t c => State.raiseOwner t .claimEnded c.owner)
      (fun t c => raiseOwner_channels (s := t) _ _) (removed.filter Claim.endLatches) s5
  refine Eq.trans (foldl_keeps State.channels (fun t c => State.reducedLatch t s.claims c) (fun t c => ?_) kept s6) (h6.trans (h5.trans (h4.trans (h3.trans rfl))))
  unfold State.reducedLatch
  split <;> rfl

theorem lineBreak_channels (l : Nat) : (s.lineBreak l).channels = s.channels := rfl

theorem endFrame_channels (l : Nat) : (s.endFrame l).channels = s.channels := by
  unfold State.endFrame
  split <;> rfl

include hQ in
theorem allChan_acceptReading (hs : s.allChan Q) (g level : Nat) : (s.acceptReading g level).allChan Q := by
  unfold State.acceptReading
  extract_lets before wasLost s1 s2 s3
  have h2 : s2.channels = s.channels := by
    unfold s2
    split
    · rfl
    · unfold State.rebase
      extract_lets
      exact congrArg (·.channels) (evaluateBand_sansLinks _ _)
  have h3 : s3.allChan Q := allChan_levelNotice hQ (allChan_of_channels h2 hs) _
  split
  · exact h3
  · exact allChan_reexamine hQ h3

include hQ in
theorem allChan_loseGauge (hs : s.allChan Q) (g : Nat) : (s.loseGauge g).allChan Q := by
  unfold State.loseGauge
  extract_lets before _ s1 s2 s3
  have h3 : s3.allChan Q := by
    refine allChan_levelNotice hQ ?_ _
    exact allChan_of_channels (s := s) rfl hs
  split
  · exact h3
  · exact allChan_reexamine hQ h3

include hQ in
/-- A property of single channels that every update keeps is kept by the effect of every command. -/
theorem allChan_effect (hsp : ∀ x, Q x → ∀ o, x.setpoint = some o → o ≤ 1000)
    (hwait : ∀ x, Q x → x.waitMark = true → x.setpoint.isSome) (hs : s.allChan Q) (c : Instr) :
    (effect c s).allChan Q := by
  have frame : ∀ (t : State) l tag r, t.allChan Q → (t.takeFrame l tag r).allChan Q :=
    fun t l tag r h => allChan_takeFrame hQ hsp hwait h l tag r
  have guard : ∀ (b : Bool) (t : State), t.allChan Q → (if b then t else s).allChan Q := by
    intro b t ht
    cases b
    · exact hs
    · exact ht
  cases c with
  | powerOn => exact allChan_enterLoading hQ _
  | loadComplete =>
    refine guard _ _ ?_
    unfold State.completeLoad
    split
    · split
      · exact allChan_activateFresh hQ (s := { s with loadResult := .valid }) hs _
      · exact allChan_of_channels (s := s) rfl hs
    · exact allChan_of_channels (s := s) rfl hs
  | clockWrap => exact guard _ _ (allChan_enterLoading hQ _)
  | gaugeReading g level good =>
    show (s.takeReading g level good).allChan Q
    unfold State.takeReading
    split
    · split
      · exact allChan_acceptReading hQ hs _ _
      · exact allChan_of_channels (s := s) rfl hs
    · exact hs
  | gaugeTimerExpiry g => exact guard _ _ (allChan_loseGauge hQ hs g)
  | passTimerExpiry =>
    refine guard _ _ ?_
    unfold State.expirePass
    split
    · exact allChan_of_channels (s := s) rfl hs
    · exact allChan_startPass hQ hs
  | routingUpkeep => exact guard _ _ (allChan_of_channels routingStage_channels hs)
  | baseForecast => exact guard _ _ (allChan_of_channels baseStage_channels hs)
  | sweep => exact guard _ _ (allChan_of_channels sweepStage_channels hs)
  | forcing => exact guard _ _ (allChan_of_channels forcingStage_channels hs)
  | publish => exact guard _ _ (allChan_of_channels publishStage_channels hs)
  | passCompletion => exact guard _ _ (allChan_completionStage hQ hs)
  | positionReport c p => exact allChan_report hQ hs c p
  | tripAssertion c => exact allChan_assertTrip hQ hs c
  | tripRelease c => exact allChan_of_channels (s := s) rfl hs
  | rampStep c => exact allChan_ramp hQ hs c
  | trackingTimerExpiry c => exact guard _ _ (allChan_enterFault hQ hs _ _)
  | feedbackTimerExpiry c => exact guard _ _ (allChan_enterFault hQ hs _ _)
  | bringupTimerExpiry c => exact guard _ _ (allChan_enterFault hQ hs _ _)
  | claimStartReached n =>
    show (s.startReached n).allChan Q
    unfold State.startReached
    split
    · split
      · exact allChan_recompute hQ hs _
      · exact hs
    · exact hs
  | claimEndReached n =>
    show (s.endReached n).allChan Q
    unfold State.endReached
    split
    · exact allChan_endIfReached hQ hs _
    · exact hs
  | frameDiscarded l bytes =>
    exact receive_keeps (P := State.allChan Q) l (fun t rx h => allChan_of_channels (s := t) rfl h)
      (fun t tag r h => frame t l tag r h) bytes s hs
  | linkTimerExpiry l => exact guard _ _ (allChan_linkDown hQ hs l)
  | lineBreak l => exact allChan_of_channels (lineBreak_channels l) hs
  | frameSent l => exact allChan_of_channels (endFrame_channels l) hs
  | storeStepDone => exact allChan_of_channels (s := s) rfl hs
  | storeComplete => exact allChan_of_channels (s := s) rfl hs
  | storeFailure =>
    have e : s.failStore.channels = s.channels := by
      unfold State.failStore
      split <;> rfl
    exact allChan_of_channels e hs
  | unknownKind l tag k => exact frame s _ _ _ hs
  | ping l tag => exact frame s _ _ _ hs
  | release l tag b => exact frame s _ _ _ hs
  | withdraw l tag h => exact frame s _ _ _ hs
  | declareInflow l tag p r => exact frame s _ _ _ hs
  | takeLocal l tag c => exact frame s _ _ _ hs
  | setOpening l tag c o => exact frame s _ _ _ hs
  | releaseLocal l tag c => exact frame s _ _ _ hs
  | clearFault l tag c => exact frame s _ _ _ hs
  | resetTrip l tag c => exact frame s _ _ _ hs
  | bringUp l tag c => exact frame s _ _ _ hs
  | queryClaim l tag i => exact frame s _ _ _ hs
  | queryPoolForecast l tag i => exact frame s _ _ _ hs
  | queryDamPlan l tag i => exact frame s _ _ _ hs
  | queryChannel l tag i => exact frame s _ _ _ hs
  | queryReachQueue l tag i => exact frame s _ _ _ hs
  | queryLinkState l tag i => exact frame s _ _ _ hs
  | queryFaultCapture l tag i => exact frame s _ _ _ hs
  | queryIdentity l tag i => exact frame s _ _ _ hs
  | readConditions l tag => exact frame s _ _ _ hs
  | setMask l tag m => exact frame s _ _ _ hs
  | resume l tag => exact frame s _ _ _ hs
  | hold l tag => exact frame s _ _ _ hs
  | enterService l tag => exact frame s _ _ _ hs
  | leaveService l tag => exact frame s _ _ _ hs
  | writeTable l tag r i => exact frame s _ _ _ hs
  | storeSettings l tag => exact frame s _ _ _ hs
  | restart l tag => exact frame s _ _ _ hs

end

end Sys2Proof.Machine
end

