-- ==== Sys2Proof/Laws/Links.lean ====
section
/-! SUPPORT. What a command leaves on the links: the operations that only latch conditions, and the taking of a request that is answered
at once. -/

namespace Sys2Proof.Machine

/-! ### Latching -/

theorem or_mono (a b c : BitVec 12) (h : a ||| b = b) : a ||| (b ||| c) = b ||| c := by
  rw [← BitVec.or_assoc, h]

theorem or_trans {n : Nat} (a b c : BitVec n) (h : a ||| b = b) (h' : b ||| c = c) : a ||| c = c := by
  rw [← h', ← BitVec.or_assoc, h]

theorem or_left (a b c : BitVec 12) (h : a ||| b = b) (h' : b &&& c = 0#12) : a &&& c = 0#12 := by
  apply BitVec.eq_of_getLsbD_eq
  intro i hi
  have e := congrArg (·.getLsbD i) h
  have e' := congrArg (·.getLsbD i) h'
  simp only [BitVec.getLsbD_or, BitVec.getLsbD_and, BitVec.getLsbD_zero] at e e' ⊢
  cases ha : a.getLsbD i <;> simp_all

theorem statusFor_same {x y : Link} (hl : y.latched = x.latched) (hp : y.statusPending = x.statusPending)
    (hs : y.sending = x.sending) (hw : y.waiting = x.waiting) : x.statusFor y :=
  ⟨fun _ _ h => absurd (by rw [hl]) h, fun _ => ⟨hp, hs, hw⟩⟩

theorem onlyLatches_refl (x : Link) : x.onlyLatches x :=
  ⟨⟨rfl, by simp, statusFor_same rfl rfl rfl rfl⟩, by simp⟩

/-- On a sound link one latching after another is one latching. -/
theorem onlyLatches_trans {x y z : Link} (hx : x.ok) (h : x.onlyLatches y) (h' : y.onlyLatches z) :
    x.onlyLatches z := by
  obtain ⟨⟨e, hl, hr, hk⟩, hb⟩ := h
  obtain ⟨⟨e', hl', hr', hk'⟩, hb'⟩ := h'
  have hm : y.mask = x.mask := by rw [e]
  have hu : y.up = x.up := by rw [e]
  rw [hm] at hr' hk'
  rw [hu] at hr' hk'
  refine ⟨⟨by rw [e', e], or_trans _ _ _ hl hl', fun up clear new => ?_, fun hc => ?_⟩, or_trans _ _ _ hb hb'⟩
  · have hx0 : x.latched &&& ~~~x.mask = 0#12 := by
      by_contra hne
      rw [hx.2.2.2.1 up hne] at clear
      exact absurd clear (by simp)
    by_cases hy0 : y.latched &&& ~~~x.mask = 0#12
    · obtain ⟨a, b, c⟩ := hk (.inr (.inr hy0))
      rw [b, c] at hr'
      obtain ⟨r1, r2, r3⟩ := hr' up (a.trans clear) (by rw [hy0, ← hx0]; exact new)
      refine ⟨r1, fun hs hw => ?_, r3⟩
      obtain ⟨w1, q, w2, w3, w4, w5, w6⟩ := r2 hs hw
      exact ⟨w1, q, w2, w3, or_trans _ _ _ hl w4, w5, or_trans _ _ _ w6 (by
        rw [hb', BitVec.or_comm x.band, ← BitVec.or_assoc, BitVec.or_self])⟩
    · obtain ⟨r1, r2, r3⟩ := hr up clear (by rw [hx0]; exact hy0)
      obtain ⟨a, b, c⟩ := hk' (.inr (.inl r1))
      refine ⟨a.trans r1, fun hs hw => ?_, fun hs => ?_⟩
      · obtain ⟨w1, q, w2, w3, w4, w5, w6⟩ := r2 hs hw
        refine ⟨c.trans w1, q, ?_, w3, w4, or_trans _ _ _ w5 hl', ?_⟩
        · unfold Link.statusSent at w2 ⊢
          rw [b]
          exact w2
        · rw [hb] at w6
          exact or_trans _ _ _ w6 (by rw [BitVec.or_comm x.band, ← BitVec.or_assoc, hb'])
      · rw [b, c]
        exact r3 hs
  · have h1 : x.up = false ∨ x.statusPending = true ∨ y.latched &&& ~~~x.mask = 0#12 :=
      hc.imp_right fun h => h.imp_right (or_left _ _ _ hl')
    obtain ⟨a, b, c⟩ := hk h1
    obtain ⟨a', b', c'⟩ := hk' (hc.imp_right fun h => h.imp_left (a.trans ·))
    exact ⟨a'.trans a, b'.trans b, c'.trans c⟩

/-- A sound link stays sound while conditions latch on it, and nothing else happens to it. -/
def Link.latchesTo (x y : Link) : Prop := x.ok → y.ok ∧ x.onlyLatches y

theorem latchesTo_refl (x : Link) : x.latchesTo x := fun h => ⟨h, onlyLatches_refl x⟩

theorem latchesTo_trans {x y z : Link} (h : x.latchesTo y) (h' : y.latchesTo z) : x.latchesTo z := fun hx =>
  ⟨(h' (h hx).1).1, onlyLatches_trans hx (h hx).2 (h' (h hx).1).2⟩

theorem Condition.bit_ne (c : Condition) : c.bit ≠ 0#12 := by cases c <;> decide

/-- A kind that a mask of one kind holds back adds nothing to the unmasked ones. -/
theorem masked_adds_nothing (c : Condition) (l m : BitVec 12) (h : c.bit &&& m ≠ 0#12) :
    (l ||| c.bit) &&& ~~~m = l &&& ~~~m := by
  have hb : c.bit &&& ~~~m = 0#12 := by
    apply BitVec.eq_of_getLsbD_eq
    intro i hi
    by_contra hne
    apply h
    have : ∃ k, c.bit = BitVec.twoPow 12 k ∧ k < 12 := by
      cases c
      · exact ⟨0, by decide, by decide⟩
      · exact ⟨1, by decide, by decide⟩
      · exact ⟨2, by decide, by decide⟩
      · exact ⟨3, by decide, by decide⟩
      · exact ⟨4, by decide, by decide⟩
      · exact ⟨5, by decide, by decide⟩
      · exact ⟨6, by decide, by decide⟩
      · exact ⟨7, by decide, by decide⟩
      · exact ⟨8, by decide, by decide⟩
      · exact ⟨9, by decide, by decide⟩
      · exact ⟨10, by decide, by decide⟩
      · exact ⟨11, by decide, by decide⟩
    obtain ⟨k, hk, hk'⟩ := this
    rw [hk] at hne ⊢
    apply BitVec.eq_of_getLsbD_eq
    intro j hj
    simp only [BitVec.getLsbD_and, BitVec.getLsbD_twoPow, BitVec.getLsbD_not, BitVec.getLsbD_zero] at hne ⊢
    by_cases hjk : k = j
    · subst hjk
      by_cases hik : k = i
      · subst hik
        simpa [hi] using hne
      · simp [hik] at hne
    · simp [hjk]
  have : (l ||| c.bit) &&& ~~~m = (l &&& ~~~m) ||| (c.bit &&& ~~~m) := by
    apply BitVec.eq_of_getLsbD_eq
    intro i hi
    simp only [BitVec.getLsbD_and, BitVec.getLsbD_or, Bool.and_or_distrib_right]
  rw [this, hb, BitVec.or_zero]

/-- An idle transmitter has nothing waiting, so a STATUS frame raised on a sound link starts at once or waits last. -/
theorem startTx_raiseStatus {x : Link} (ctx : TxContext) (h : x.sending = none → x.waiting = []) :
    Link.startTx ctx x.raiseStatus =
      if x.sending = none then
        { x with
          statusPending := true, sending := some (.status ctx.mode ctx.published x.latched (x.band &&& ctx.scope)) }
      else x.raiseStatus := by
  unfold Link.startTx Link.raiseStatus
  cases hs : x.sending with
  | none => simp [h hs]
  | some f => simp

/-- A kind that a mask of one kind does not hold back is among the unmasked ones once latched. -/
theorem unmasked_adds (c : Condition) (l m : BitVec 12) (h : c.bit &&& m = 0#12) : (l ||| c.bit) &&& ~~~m ≠ 0#12 := by
  intro h0
  apply c.bit_ne
  apply BitVec.eq_of_getLsbD_eq
  intro i hi
  have e := congrArg (·.getLsbD i) h
  have e0 := congrArg (·.getLsbD i) h0
  simp only [BitVec.getLsbD_or, BitVec.getLsbD_and, BitVec.getLsbD_not, BitVec.getLsbD_zero] at e e0 ⊢
  cases hc : c.bit.getLsbD i <;> simp_all

theorem latch_latchesTo (ctx : TxContext) (c : Condition) (x : Link) : x.latchesTo (Link.latch ctx c x) := by
  intro hx
  obtain ⟨h1, h2, h3, h4, h5⟩ := hx
  unfold Link.latch
  extract_lets y
  have hy : y.sending = none → y.waiting = [] := h2
  split
  · next hc =>
    simp only [Bool.and_eq_true, Bool.not_eq_true', beq_iff_eq] at hc
    rw [startTx_raiseStatus ctx hy]
    have hup : x.up = true := hc.1.1
    split
    · next hs =>
      have hw : x.waiting = [] := h2 hs
      have hp : x.statusPending = false := hc.1.2
      have hu := unmasked_adds c x.latched x.mask hc.2
      refine ⟨⟨h1, by simp, h3, by simp, by simp [y, hup]⟩,
        ⟨rfl, ?_, fun _ _ _ => ⟨rfl, fun _ _ => ⟨hw, _, rfl, hu, ?_, ?_, ?_⟩, fun h => ?_⟩, ?_⟩, by simp [y]⟩
      · simp [y, ← BitVec.or_assoc]
      · simp [y, ← BitVec.or_assoc]
      · simp
      · simp only [y, BitVec.or_self]
        apply BitVec.eq_of_getLsbD_eq
        intro i hi
        simp only [BitVec.getLsbD_or, BitVec.getLsbD_and]
        cases x.band.getLsbD i <;> simp
      · rw [show x.sending = none from hs] at h
        exact absurd h (by simp)
      · rintro (h | h | h)
        · exact absurd hup (by simp [h])
        · exact absurd hp (by simp [h])
        · exact absurd h hu
    · next hs =>
      have hp : x.statusPending = false := hc.1.2
      have hu := unmasked_adds c x.latched x.mask hc.2
      refine ⟨⟨h1, fun e => absurd e hs, ?_, by simp [Link.raiseStatus], by simp [Link.raiseStatus, y, hup]⟩,
        ⟨rfl, ?_, fun _ _ _ => ⟨rfl, fun h => absurd h hs, fun _ => ⟨rfl, rfl⟩⟩, ?_⟩, by simp [y, Link.raiseStatus]⟩
      · show List.count TxItem.first (x.waiting ++ [.status]) = _
        rw [List.count_append]
        exact h3
      · simp [y, Link.raiseStatus, ← BitVec.or_assoc]
      · rintro (h | h | h)
        · exact absurd hup (by simp [h])
        · exact absurd hp (by simp [h])
        · exact absurd h hu
  · next hc =>
    have hq : x.up = true → c.bit &&& x.mask = 0#12 → x.statusPending = true := by
      intro hup hm
      by_contra hp
      apply hc
      simp [hup, Bool.eq_false_iff.2 hp, hm]
    refine ⟨⟨h1, h2, h3, fun hup hl => ?_, h5⟩,
      ⟨rfl, by simp [y, ← BitVec.or_assoc], fun up clear new => ?_, fun _ => ⟨rfl, rfl, rfl⟩⟩, by simp [y]⟩
    · by_cases hm : c.bit &&& x.mask = 0#12
      · exact hq hup hm
      · rw [masked_adds_nothing c _ _ hm] at hl
        exact h4 hup hl
    · by_cases hm : c.bit &&& x.mask = 0#12
      · rw [hq up hm] at clear
        exact absurd clear (by simp)
      · exact absurd (masked_adds_nothing c _ _ hm) new

/-- Conditions may latch on the links, and nothing else happens to them. -/
def State.latchesTo (s t : State) : Prop := ∀ m, (s.linkAt m).latchesTo (t.linkAt m)

theorem latches_refl (s : State) : s.latchesTo s := fun _ => latchesTo_refl _

theorem latches_trans {s t u : State} (h : s.latchesTo t) (h' : t.latchesTo u) : s.latchesTo u :=
  fun m => latchesTo_trans (h m) (h' m)

theorem latches_of_links {s t : State} (h : t.links = s.links) : s.latchesTo t := by
  intro m
  have : t.linkAt m = s.linkAt m := by unfold State.linkAt; rw [h]
  rw [this]
  exact latchesTo_refl _

/-- A state with the same links latches where the other does. -/
theorem latches_congr {s t u : State} (h : t.links = s.links) (h' : t.latchesTo u) : s.latchesTo u :=
  latches_trans (latches_of_links h) h'

theorem latches_foldl {α : Type} {f : State → α → State} (h : ∀ (s : State) (a : α), s.latchesTo (f s a)) :
    ∀ (l : List α) (s : State), s.latchesTo (l.foldl f s)
  | [], s => latches_refl s
  | a :: l, s => latches_trans (h s a) (latches_foldl h l (f s a))

theorem linkAt_gen1 (s : State) (f : Nat → Link) (m : Nat) :
    ({ s with links := gen1 f } : State).linkAt m = if 1 ≤ m ∧ m ≤ 4 then f m else {} := get1_gen1 f m

theorem linkAt_out (s : State) {m : Nat} (h : ¬(1 ≤ m ∧ m ≤ 4)) : s.linkAt m = {} := by
  unfold State.linkAt
  cases m with
  | zero => rfl
  | succ k => exact get0_ge s.links (by omega)

theorem latches_gen1 (s : State) (f : Nat → Link) (h : ∀ m, (s.linkAt m).latchesTo (f m)) :
    s.latchesTo { s with links := gen1 f } := by
  intro m
  rw [linkAt_gen1]
  split
  · exact h m
  · next hm =>
    rw [linkAt_out s hm]
    exact latchesTo_refl _

variable (s : State)

theorem raise_latches (c : Condition) (f : Nat → Bool) : s.latchesTo (s.raise c f) := by
  refine latches_gen1 s _ fun m => ?_
  split
  · exact latch_latchesTo _ _ _
  · exact latchesTo_refl _

theorem raiseDam_latches (c : Condition) (k : Nat) : s.latchesTo (s.raiseDam c k) := raise_latches s _ _
theorem raiseOwner_latches (c : Condition) (k : Nat) : s.latchesTo (s.raiseOwner c k) := raise_latches s _ _
theorem raiseAll_latches (c : Condition) : s.latchesTo (s.raiseAll c) := raise_latches s _ _

theorem outOfBand_latches (k : Nat) : s.latchesTo (s.outOfBand k) := by
  refine latches_gen1 s _ fun m => ?_
  split
  · intro h
    obtain ⟨h1, h2, h3, h4, h5⟩ := h
    exact ⟨⟨h1, h2, h3, h4, h5⟩, ⟨rfl, by simp, statusFor_same rfl rfl rfl rfl⟩, by simp [← BitVec.or_assoc]⟩
  · exact latchesTo_refl _

theorem evaluateBand_latches (k : Nat) : s.latchesTo (s.evaluateBand k) := by
  unfold State.evaluateBand
  split
  · split
    · exact outOfBand_latches s k
    · exact latches_refl s
  · exact latches_refl s

theorem recompute_latches (k : Nat) : s.latchesTo (s.recompute k) := by
  unfold State.recompute
  extract_lets sh ch t
  have h : t.links = s.links := rfl
  split
  · exact latches_congr h (raiseDam_latches t _ _)
  · exact latches_of_links h

theorem push_latches (k flow : Nat) : s.latchesTo (s.push k flow) := by
  unfold State.push
  extract_lets ready new t
  have h : t.links = s.links := rfl
  split
  · exact latches_congr h (raise_latches t _ _)
  · exact latches_of_links h

theorem outflowReport_latches (k flow : Nat) : s.latchesTo (s.outflowReport k flow) := by
  unfold State.outflowReport
  extract_lets _ t
  have h : t.links = s.links := rfl
  split
  · exact latches_congr h (push_latches t _ _)
  · exact latches_of_links h

theorem setActualIn_latches (u : TableSet) (c flow : Nat) : s.latchesTo (s.setActualIn u c flow) := by
  unfold State.setActualIn
  split
  · exact latches_refl s
  · extract_lets _ t
    have h : t.links = s.links := rfl
    split
    · split
      · exact latches_congr h (outflowReport_latches t _ _)
      · exact latches_of_links h
    · exact latches_of_links h

theorem reformFlow_latches (c : Nat) : s.latchesTo (s.reformFlow c) := by
  unfold State.reformFlow
  split
  · exact setActualIn_latches s _ _ _
  · exact latches_refl s

theorem levelNotice_latches (b : Tab 6 Nat) : s.latchesTo (s.levelNotice b) := by
  unfold State.levelNotice
  refine latches_foldl (fun t k => ?_) _ s
  show t.latchesTo (if _ then t else _)
  split
  · exact latches_refl t
  · exact latches_trans (latches_foldl (fun u c => reformFlow_latches u c) _ t) (recompute_latches _ k)

theorem takeBases_latches : s.latchesTo s.takeBases := by
  unfold State.takeBases
  extract_lets t0 bin before pools rates dams reaches _ pass t
  have h : t.links = s.links := rfl
  exact latches_congr h
    (latches_trans (latches_foldl (fun u k => evaluateBand_latches u k) _ t) (levelNotice_latches _ _))

theorem startPass_latches : s.latchesTo s.startPass := by
  unfold State.startPass
  extract_lets _ t
  have h : t.links = s.links := rfl
  split
  · exact latches_of_links rfl
  · exact latches_congr h (takeBases_latches t)

theorem requestPass_latches : s.latchesTo s.requestPass := by
  unfold State.requestPass
  split
  · exact latches_refl s
  · split
    · exact latches_of_links rfl
    · exact startPass_latches s

theorem reexamine_latches : s.latchesTo s.reexamine := by
  unfold State.reexamine
  split
  · exact takeBases_latches s
  · exact latches_refl s

theorem recomputeFor_latches (c : Nat) : s.latchesTo (s.recomputeFor c) := recompute_latches s _

theorem handover_latches (c : Nat) (x : Channel) : s.latchesTo (s.handover c x) :=
  latches_congr rfl (recomputeFor_latches (s.setChan c x) c)

theorem offer_latches (k : CaptureKind) (n : Nat) (a b : Option Nat) : s.latchesTo (s.offer k n a b) :=
  latches_of_links rfl

theorem enterFault_latches (c : Nat) (k : FaultKind) : s.latchesTo (s.enterFault c k) := by
  unfold State.enterFault
  extract_lets x s1
  have h1 : s.latchesTo s1 := latches_congr rfl (raiseDam_latches (s.setChan c x) _ _)
  exact latches_trans h1 (latches_trans (offer_latches s1 _ _ _ _)
    (latches_trans (requestPass_latches _) (recomputeFor_latches _ c)))

theorem enterReady_latches (c : Nat) : s.latchesTo (s.enterReady c) := by
  unfold State.enterReady
  extract_lets r x
  exact latches_congr rfl (latches_trans (requestPass_latches (s.setChan c x)) (recomputeFor_latches _ c))

end Sys2Proof.Machine
end

