-- ==== Sys2Proof/Laws/Replies.lean ====
section
/-! SUPPORT. The taking of a request by a link that is up with room in its buffer, and the two ways its reply stands on the link. -/

namespace Sys2Proof.Machine

variable {s : State} {l : Nat}

/-! ### Taking -/

theorem linkAt_setLink (s : State) (l m : Nat) (x : Link) :
    (s.setLink l x).linkAt m = if m = l ∧ 1 ≤ l ∧ l ≤ 4 then x else s.linkAt m := get1_put1 s.links l m x

/-- A link that is up is one of the four. -/
theorem up_in (h : (s.linkAt l).up = true) : 1 ≤ l ∧ l ≤ 4 := by
  by_contra hl
  rw [linkAt_out s hl] at h
  exact absurd h (by decide)

theorem linkAt_setLink_up (h : (s.linkAt l).up = true) (x : Link) : (s.setLink l x).linkAt l = x := by
  rw [linkAt_setLink, if_pos ⟨rfl, up_in h⟩]

theorem linkAt_setLink_ne (s : State) {l m : Nat} (h : m ≠ l) (x : Link) : (s.setLink l x).linkAt m = s.linkAt m := by
  rw [linkAt_setLink, if_neg (fun e => h e.1)]

/-- The link as a frame that joins its buffer leaves it, before the request is checked. -/
def Link.taken (x : Link) (now timeout kind tag : Nat) : Link :=
  { x with
    rx := [], timer := some (now + timeout), lastFrame := some now
    buffer := x.buffer ++ [{ kind := kind, tag := tag }] }

/-- The state as a frame that joins the buffer leaves it, before the request is checked. -/
def State.buffered (s : State) (l tag : Nat) (r : Request) : State :=
  s.setLink l ((s.linkAt l).taken s.clock (s.active.link l).timeout r.replyKind tag)

theorem superviseFrame_up (h : (s.linkAt l).up = true) : s.superviseFrame l =
    s.setLink l { s.linkAt l with
      rx := [], timer := some (s.clock + (s.active.link l).timeout), lastFrame := some s.clock } := by
  unfold State.superviseFrame
  exact if_pos h

/-- A link that takes a request buffers it and has it decided. -/
theorem takeFrame_taken (h : s.takes l) (tag : Nat) (r : Request) :
    s.takeFrame l tag r = State.conclude ((s.buffered l tag r).decideRequest l tag r) l := by
  obtain ⟨hup, hfull⟩ := h
  unfold State.takeFrame
  rw [superviseFrame_up hup]
  extract_lets _ s1
  have h1 : s1.linkAt l = _ := linkAt_setLink_up hup _
  have hf : (s1.linkAt l).full = false := by rw [h1]; exact hfull
  rw [if_neg (by simp [hf]), h1]
  unfold s1 State.buffered
  rw [setLink_setLink]
  rfl

@[simp] theorem buffered_refusal (tag : Nat) (r q : Request) (m : Nat) :
    (s.buffered l tag r).refusal m q = s.refusal m q := rfl

theorem buffered_linkAt (h : (s.linkAt l).up = true) (tag : Nat) (r : Request) :
    (s.buffered l tag r).linkAt l = (s.linkAt l).taken s.clock (s.active.link l).timeout r.replyKind tag :=
  linkAt_setLink_up h _

theorem buffered_other {m : Nat} (h : m ≠ l) (tag : Nat) (r : Request) :
    (s.buffered l tag r).linkAt m = s.linkAt m := linkAt_setLink_ne s h _

/-- The state a request leaves that is answered at once: its effect, made with the request in the buffer, and the reply. -/
theorem exec_answered {c : Instr} {tag : Nat} {r : Request} (hw : c.wf = true)
    (hc : requestOfCommand c = some (l, tag, r)) (h : s.takes l) {e : Effect} {b : ReplyBody}
    (he : (s.buffered l tag r).decideRequest l tag r = e) (hb : e.2 = some b) :
    exec c s = .next (e.1.answerLast l b) := by
  rw [exec_of_wf s hw, effect_request s hc, takeFrame_taken h, he]
  unfold State.conclude
  rw [hb]

theorem decide_refused {tag : Nat} {r q : Request} {c : Status} (h : s.refusal l q = some c) :
    (s.buffered l tag r).decideRequest l tag q = (s.buffered l tag r).refuse c := by
  unfold State.decideRequest
  rw [buffered_refusal, h]

theorem decide_admitted {tag : Nat} {r q : Request} (h : s.refusal l q = none) :
    (s.buffered l tag r).decideRequest l tag q = (s.buffered l tag r).handOn l tag q := by
  unfold State.decideRequest
  rw [buffered_refusal, h]

/-! ### The reply -/

theorem full_length {x : Link} (h : x.full = false) : x.buffer.length < 4 := by
  exact Nat.lt_of_not_le (of_decide_eq_false h)

theorem taken_ok {x : Link} (hx : x.ok) (hf : x.full = false) (now timeout kind tag : Nat) :
    (x.taken now timeout kind tag).ok := by
  obtain ⟨h1, h2, h3, h4, h5⟩ := hx
  refine ⟨?_, h2, ?_, h4, h5⟩
  · have := full_length hf
    simp [Link.taken, Config.bufferPlaces]
    omega
  · have hf' : (x.taken now timeout kind tag).firstFormed = x.firstFormed := by
      unfold Link.taken Link.firstFormed
      cases x.buffer <;> rfl
    rw [hf']
    exact h3

/-- The only request of a buffer sent: READ_CONDITIONS alone touches the STATUS-pending flag. -/
theorem sendFirst_single {x : Link} {e : BufEntry} (h : x.buffer = [e]) : ∃ p w,
    x.sendFirst = { x with
      sending := e.reply.map (TxFrame.reply e.kind e.tag), buffer := [], statusPending := p
      waiting := x.waiting ++ w } ∧
    (e.kind ≠ readConditionsKind → p = x.statusPending ∧ w = []) := by
  unfold Link.sendFirst
  rw [h]
  dsimp only
  by_cases hk : e.kind = readConditionsKind
  · simp only [hk, beq_self_eq_true, if_true, Bool.true_and]
    split
    · exact ⟨true, [.status], rfl, by simp⟩
    · exact ⟨false, [], by simp [Link.readyFirst], by simp⟩
  · simp only [if_false, Bool.false_and, beq_eq_false_iff_ne.2 hk, Bool.false_eq_true]
    exact ⟨x.statusPending, [], by simp [Link.readyFirst], by simp⟩

/-- The reply of the last request of a sound link, formed: begun if the request is alone before an idle transmitter, and
else at the end of the buffer. -/
theorem answerLast_cases {y : Link} (ctx : TxContext) (body : ReplyBody) {kind tag : Nat} {before : List BufEntry}
    (hy : y.ok) (hb : y.buffer = before ++ [{ kind := kind, tag := tag }]) :
    (before = [] ∧ y.sending = none ∧ ∃ p w, Link.answerLast ctx body y =
        { y with buffer := [], sending := some (.reply kind tag body), statusPending := p, waiting := w } ∧
        (kind ≠ readConditionsKind → p = y.statusPending ∧ w = [])) ∨
    (¬(before = [] ∧ y.sending = none) ∧ Link.answerLast ctx body y =
        { y with
          buffer := before ++ [{ kind := kind, tag := tag, reply := some body }]
          waiting := y.waiting ++ (if before = [] then [.first] else []) }) := by
  unfold Link.answerLast
  rw [hb, List.reverse_append, List.reverse_singleton, List.singleton_append]
  dsimp only
  cases before with
  | nil =>
    simp only [List.reverse_nil, List.isEmpty_nil, if_true, List.nil_append, true_and]
    unfold Link.ready Link.startTx
    cases hs : y.sending with
    | none =>
      have hw := hy.2.1 hs
      simp only [hw, List.nil_append]
      left
      refine ⟨trivial, ?_⟩
      obtain ⟨p, w, e, hp⟩ := sendFirst_single (x := { y with
        buffer := [{ kind := kind, tag := tag, reply := some body }], waiting := [], sending := none }) rfl
      refine ⟨p, w, ?_, fun hk => hp hk⟩
      rw [← hs] at e ⊢
      exact e
    | some f =>
      right
      refine ⟨by simp, ?_⟩
      simp
  | cons e r =>
    right
    refine ⟨by simp, ?_⟩
    simp

variable {tag : Nat} {r : Request} {u : State}

theorem answerLast_other {m : Nat} (u : State) (b : ReplyBody) (h : m ≠ l) :
    (u.answerLast l b).linkAt m = u.linkAt m := linkAt_setLink_ne u h _

/-- The reply of a request whose effect touches no link. -/
theorem answers_of (b : ReplyBody) (ht : s.takes l) (ho : (s.linkAt l).ok) (hu : u.links = (s.buffered l tag r).links)
    (hk : r.replyKind ≠ readConditionsKind) : s.answers (u.answerLast l b) l r.replyKind tag b := by
  have hl : ∀ m, u.linkAt m = (s.buffered l tag r).linkAt m := by
    intro m
    unfold State.linkAt
    rw [hu]
  have hul : u.linkAt l = (s.linkAt l).taken s.clock (s.active.link l).timeout r.replyKind tag := by
    rw [hl, buffered_linkAt ht.1]
  have hup : (u.linkAt l).up = true := by rw [hul]; exact ht.1
  refine ⟨fun m hm => ?_, ?_⟩
  · rw [answerLast_other u b hm, hl, buffered_other hm]
  · have hy : (u.linkAt l).ok := by
      rw [hul]
      exact taken_ok ho ht.2 _ _ _ _
    have e : (u.answerLast l b).linkAt l = Link.answerLast (u.txContext l) b (u.linkAt l) := linkAt_setLink_up hup _
    rw [e]
    have hb : (u.linkAt l).buffer = (s.linkAt l).buffer ++ [{ kind := r.replyKind, tag := tag }] := by rw [hul]; rfl
    rcases answerLast_cases (u.txContext l) b hy hb with ⟨h0, hs, p, w, hz, hp⟩ | ⟨hn, hz⟩
    · rw [hz, (hp hk).1, (hp hk).2, hul]
      rw [hul] at hs
      exact ⟨⟨ht.1, rfl, rfl, rfl, rfl⟩, ⟨rfl, rfl, rfl⟩, by
        unfold Link.answered
        rw [if_pos ⟨h0, hs⟩]
        exact ⟨rfl, rfl, rfl⟩⟩
    · rw [hz, hul]
      rw [hul] at hn
      have hn : ¬((s.linkAt l).buffer = [] ∧ (s.linkAt l).sending = none) := hn
      exact ⟨⟨ht.1, rfl, rfl, rfl, rfl⟩, ⟨rfl, rfl, rfl⟩, by
        unfold Link.answered
        rw [if_neg hn]
        exact ⟨rfl, rfl, rfl⟩⟩

/-- A reply formed begins no STATUS frame. -/
theorem answerLast_statusContents (u : State) (b : ReplyBody) (hc : s.statusContents u)
    (hl : ((u.answerLast l b).linkAt l).sending = (u.linkAt l).sending ∨ ((u.answerLast l b).linkAt l).statusSent = none) :
    s.statusContents (u.answerLast l b) := by
  intro m hm q hq
  refine hc m hm q ?_
  by_cases h : m = l
  · subst h
    rcases hl with h | h
    · unfold Link.statusSent at hq ⊢
      rw [← h]
      exact hq
    · rw [h] at hq
      exact absurd hq (by simp)
  · rw [answerLast_other u b h] at hq
    exact hq

/-- The reply of a request whose effect latches conditions on the links. -/
theorem answersAmid_of (b : ReplyBody) (ht : s.takes l) (hs : s.linksOk) (hu : (s.buffered l tag r).latchesTo u)
    (hc : s.statusContents u) (hk : r.replyKind ≠ readConditionsKind) :
    s.answersAmid (u.answerLast l b) l r.replyKind tag b := by
  have hin := up_in ht.1
  have hok : ∀ m, (s.linkAt m).ok := by
    intro m
    by_cases hm : 1 ≤ m ∧ m ≤ 4
    · exact hs m (by simp [linkNumbers]; omega)
    · rw [linkAt_out s hm]
      decide
  have hbl := buffered_linkAt ht.1 tag r
  have hy0 : ((s.buffered l tag r).linkAt l).ok := by
    rw [hbl]
    exact taken_ok (hok l) ht.2 _ _ _ _
  obtain ⟨hy, hlat⟩ := hu l hy0
  rw [hbl] at hlat
  have hup : (u.linkAt l).up = true := by rw [hlat.1.1]; exact ht.1
  have e : (u.answerLast l b).linkAt l = Link.answerLast (u.txContext l) b (u.linkAt l) := linkAt_setLink_up hup _
  have hb : (u.linkAt l).buffer = (s.linkAt l).buffer ++ [{ kind := r.replyKind, tag := tag }] := by
    rw [hlat.1.1]; rfl
  have hcases := answerLast_cases (u.txContext l) b hy hb
  have hx : ({ s.linkAt l with
      rx := [], timer := some (s.clock + (s.active.link l).timeout), lastFrame := some s.clock } : Link).onlyLatches
        { u.linkAt l with buffer := (s.linkAt l).buffer } :=
    ⟨⟨congrArg (fun k : Link => { k with buffer := (s.linkAt l).buffer }) hlat.1.1, hlat.1.2⟩, hlat.2⟩
  unfold State.answersAmid State.answersAfter
  refine ⟨fun m hm => ?_, ?_, { u.linkAt l with buffer := (s.linkAt l).buffer }, hx, ?_⟩
  · rw [answerLast_other u b hm]
    have h := hu m
    rw [buffered_other hm] at h
    exact (h (hok m)).2
  · refine answerLast_statusContents u b hc ?_
    rw [e]
    rcases hcases with ⟨_, _, p, w, hz, _⟩ | ⟨_, hz⟩
    · exact .inr (by rw [hz]; rfl)
    · exact .inl (by rw [hz])
  · rw [e]
    rcases hcases with ⟨h0, hs0, p, w, hz, hp⟩ | ⟨hn, hz⟩
    · rw [hz, (hp hk).1, (hp hk).2]
      refine ⟨rfl, ?_⟩
      unfold Link.answered
      rw [if_pos ⟨h0, hs0⟩]
      exact ⟨rfl, rfl, rfl⟩
    · rw [hz]
      refine ⟨rfl, ?_⟩
      unfold Link.answered
      rw [if_neg hn]
      exact ⟨rfl, rfl, rfl⟩

end Sys2Proof.Machine
end

