-- ==== Sys2Proof/Laws/Targets.lean ====
section
/-! SUPPORT. What flows, targets, level notices and pass starts leave of one channel. -/

namespace Sys2Proof.Machine

/-- A property of a channel that a new actual flow and a new target keep. -/
structure Retargets (P : Channel → Prop) : Prop where
  actual : ∀ x f, P x → P { x with actual := f }
  retarget : ∀ (s : State) sh c x, P x → P (s.retarget sh c x)

section
variable {P : Channel → Prop} (hP : Retargets P) {s : State} {c : Nat}

seal gen0 gen1 put0 put1 get0 get1

theorem chan_of_channels {t : State} (h : t.channels = s.channels) (c : Nat) : t.chan c = s.chan c := by
  unfold State.chan
  rw [h]

include hP

theorem recompute_chan (k : Nat) (h : P (s.chan c)) : P ((s.recompute k).chan c) := by
  unfold State.chan
  rw [recompute_channels, get0_gen0]
  split
  · split
    · exact hP.retarget s _ c _ h
    · exact h
  · next hc =>
    have e : s.chan c = default := get0_ge _ (by omega)
    rwa [e] at h

theorem recomputeFor_chan (d : Nat) (h : P (s.chan c)) : P ((s.recomputeFor d).chan c) := recompute_chan hP _ h

theorem setActualIn_chan (t : TableSet) (d f : Nat) (h : P (s.chan c)) : P ((s.setActualIn t d f).chan c) := by
  rw [chan_of_channels (setActualIn_channels s t d f), setChan_chan]
  split
  · next e =>
    rw [e.1] at h
    exact hP.actual _ _ h
  · exact h

theorem reformFlow_chan (d : Nat) (h : P (s.chan c)) : P ((s.reformFlow d).chan c) := by
  unfold State.reformFlow
  split
  · exact setActualIn_chan hP _ _ _ h
  · exact h

theorem levelNotice_chan (b : Tab 6 Nat) (h : P (s.chan c)) : P ((s.levelNotice b).chan c) := by
  unfold State.levelNotice
  refine foldl_inv (fun t => P (t.chan c)) (fun t k ht => ?_) _ s h
  split
  · exact ht
  · exact recompute_chan hP k (foldl_inv (fun t => P (t.chan c)) (fun u d hu => reformFlow_chan hP d hu) _ t ht)

theorem takeBases_chan (h : P (s.chan c)) : P (s.takeBases.chan c) := by
  unfold State.takeBases
  extract_lets t0 bin before pools rates dams reaches _ pass t
  refine levelNotice_chan hP _ ?_
  rw [chan_of_channels (evaluateLost_channels (s := t))]
  exact h

theorem startPass_chan (h : P (s.chan c)) : P (s.startPass.chan c) := by
  unfold State.startPass
  extract_lets _ t
  split
  · exact h
  · exact takeBases_chan hP (s := t) h

theorem requestPass_chan (h : P (s.chan c)) : P (s.requestPass.chan c) := by
  unfold State.requestPass
  split
  · exact h
  · split
    · exact h
    · exact startPass_chan hP h

theorem reexamine_chan (h : P (s.chan c)) : P (s.reexamine.chan c) := by
  unfold State.reexamine
  split
  · exact takeBases_chan hP h
  · exact h

end

/-! ### What is left of a channel -/

theorem undisturbed_refl (x : Channel) : x.undisturbed x := ⟨rfl, .inl rfl⟩

theorem inService_iff (x : Channel) : x.inService = true ↔ x.state = .ready ∨ x.state = .moving := by
  simp [Channel.inService]

theorem settle_undisturbed (x : Channel) : x.undisturbed x.settle := by
  unfold Channel.settle
  split
  · next h =>
    refine ⟨rfl, .inr ⟨h, ?_⟩⟩
    rw [inService_iff]
    dsimp only
    split <;> simp
  · exact undisturbed_refl x

theorem undisturbed_trans {x y z : Channel} (h : x.undisturbed y) (h' : y.undisturbed z) : x.undisturbed z := by
  obtain ⟨e, hs⟩ := h
  obtain ⟨e', hs'⟩ := h'
  refine ⟨by rw [e', e], ?_⟩
  rcases hs with hs | hs
  · rcases hs' with hs' | hs'
    · exact .inl (hs'.trans hs)
    · refine .inr ⟨?_, hs'.2⟩
      have := hs'.1
      rw [inService_iff] at this ⊢
      rwa [hs] at this
  · rcases hs' with hs' | hs'
    · refine .inr ⟨hs.1, ?_⟩
      have := hs.2
      rw [inService_iff] at this ⊢
      rwa [hs']
    · exact .inr ⟨hs.1, hs'.2⟩

theorem aim_undisturbed (x : Channel) (o f : Nat) (b : Bool) : x.undisturbed (x.aim o f b) := ⟨rfl, .inl rfl⟩

theorem retarget_undisturbed (s : State) (sh : List Share × Bool) (c : Nat) (x : Channel) :
    x.undisturbed (s.retarget sh c x) := by
  have h : ∀ o f b, x.undisturbed (x.aim o f b).settle :=
    fun o f b => undisturbed_trans (aim_undisturbed x o f b) (settle_undisturbed _)
  unfold State.retarget
  extract_lets r head
  split
  · exact aim_undisturbed _ _ _ _
  · exact ⟨rfl, .inl rfl⟩
  · exact ⟨rfl, Or.inl rfl⟩
  · exact ⟨rfl, Or.inl rfl⟩
  all_goals
    split
    · exact h _ _ _
    · split
      · exact h _ _ _
      · exact h _ _ _

theorem undisturbed_retargets (x : Channel) : Retargets x.undisturbed where
  actual _ _ h := undisturbed_trans h ⟨rfl, .inl rfl⟩
  retarget s sh c y h := undisturbed_trans h (retarget_undisturbed s sh c y)

/-- A request for a pass disturbs no channel. -/
theorem requestPass_undisturbed (s : State) (c : Nat) : (s.chan c).undisturbed (s.requestPass.chan c) :=
  requestPass_chan (undisturbed_retargets _) (undisturbed_refl _)

theorem recompute_undisturbed (s : State) (k c : Nat) : (s.chan c).undisturbed ((s.recompute k).chan c) :=
  recompute_chan (undisturbed_retargets _) k (undisturbed_refl _)

/-! ### The pass -/

theorem push_pass (s : State) (k f : Nat) : (s.push k f).pass = s.pass :=
  congrArg (·.pass) (push_sansFlows s k f)

theorem levelNotice_pass (s : State) (b : Tab 6 Nat) : (s.levelNotice b).pass = s.pass :=
  congrArg (·.pass) (levelNotice_sansFlows s b)

theorem recompute_pass (s : State) (k : Nat) : (s.recompute k).pass = s.pass :=
  congrArg (·.pass) (recompute_sansTargets s k)

theorem takeBases_pass (s : State) : s.takeBases.pass.state = .running ∧ s.takeBases.pass.again = s.pass.again ∧
    s.takeBases.pass.timer = s.pass.timer ∧ s.takeBases.pass.stage = .routing ∧
    s.takeBases.pass.forecast.start = s.clock := by
  unfold State.takeBases
  extract_lets t0 bin before pools rates dams reaches _ pass t
  have h : (t.evaluateLost.levelNotice before).pass = t.pass := by
    rw [levelNotice_pass]
    exact congrArg (·.pass) (evaluateLost_sansLinks t)
  rw [h]
  exact ⟨rfl, rfl, rfl, rfl, rfl⟩

/-- R53: a pass start leaves a pass in flight, its timer restarted. -/
theorem startPass_pass (s : State) : s.startPass.inFlight = true ∧ s.startPass.pass.again = s.pass.again ∧
    s.startPass.pass.timer = some (s.clock + s.active.pass.period) := by
  unfold State.startPass
  extract_lets _ t
  split
  · exact ⟨rfl, rfl, rfl⟩
  · obtain ⟨h1, h2, h3, _⟩ := takeBases_pass t
    exact ⟨by simp [State.inFlight, h1], h2, h3⟩

/-- R52: what an early-pass request makes of the pass registers while the part runs. -/
theorem requestPass_pass {s : State} (h : s.mode.running = true) :
    if s.inFlight then s.requestPass = { s with pass := { s.pass with again := true } }
    else s.requestPass.inFlight = true ∧ s.requestPass.pass.again = s.pass.again ∧
      s.requestPass.pass.timer = some (s.clock + s.active.pass.period) := by
  have hn : ¬(!s.mode.running) = true := by simp [h]
  have e : s.requestPass =
      if s.inFlight then { s with pass := { s.pass with again := true } } else s.startPass := if_neg hn
  rw [e]
  by_cases hf : s.inFlight = true
  · rw [if_pos hf, if_pos hf]
  · rw [if_neg hf, if_neg hf]
    exact startPass_pass s

end Sys2Proof.Machine
end

