-- ==== Sys2Proof/Laws/Aimed.lean ====
section
/-! SUPPORT. That a recompute of a dam's targets stands: a second one changes nothing, and neither does a pass start that follows it. -/

namespace Sys2Proof.Machine

/-! ### A recompute stands -/

theorem available_eq (x : Channel) : x.available = (x.inService && x.holder.isNone) := by
  unfold Channel.available Channel.source Channel.inService
  cases x.state <;> cases x.holder <;> rfl

theorem settle_holder (x : Channel) : x.settle.holder = x.holder := by
  unfold Channel.settle
  split <;> rfl

theorem settle_inService (x : Channel) : x.settle.inService = x.inService := by
  unfold Channel.settle
  split
  · next h =>
    rw [h, inService_iff]
    dsimp only
    split <;> simp
  · rfl

/-- A target set again in the same way settles in the same way. -/
theorem aim_settle_again (x : Channel) (o f : Nat) (b : Bool) :
    ((x.aim o f b).settle.aim o f b).settle = (x.aim o f b).settle := by
  have e : (x.aim o f b).settle.aim o f b = (x.aim o f b).settle := by
    unfold Channel.settle Channel.aim
    split <;> rfl
  rw [e]
  unfold Channel.settle
  by_cases h : (x.aim o f b).inService = true
  · rw [if_pos h]
    dsimp only
    split
    · rfl
    · rfl
  · rw [if_neg h, if_neg h]

/-- A recompute leaves a channel as available as it was. -/
theorem retarget_available (s : State) (sh : List Share × Bool) (c : Nat) (x : Channel) :
    (s.retarget sh c x).available = x.available := by
  have h : ∀ o f b, ((x.aim o f b).settle).available = x.available := fun o f b => by
    rw [available_eq, available_eq, settle_inService, settle_holder]
    rfl
  unfold State.retarget
  extract_lets r head
  split
  · rfl
  · rfl
  · rfl
  · rfl
  all_goals
    split
    · exact h _ _ _
    · split
      · exact h _ _ _
      · exact h _ _ _

/-- R122: what a channel in service is aimed at depends on its hold alone, beside the dam. -/
theorem retarget_inService (s : State) (sh : List Share × Bool) (c : Nat) :
    ∃ w : Option Nat → Option Nat → Nat × Nat × Bool, ∀ x : Channel, x.inService = true →
      s.retarget sh c x = (x.aim (w x.holder x.localOpening).1 (w x.holder x.localOpening).2.1
        (w x.holder x.localOpening).2.2).settle := by
  let r := s.active.channel c
  let head := s.chanHead c
  let share := ((sh.1.find? fun y => y.channel == c).map (·.share)).getD 0
  let o := if sh.2 then (1000, false) else r.openingFor share head
  refine ⟨fun holder own => match holder with
    | some _ => (own.getD 0, r.flow (own.getD 0) head, false)
    | none => match r.kind with
      | .turbine => ((r.openingFor (s.unitTarget c) head).1, s.unitTarget c, (r.openingFor (s.unitTarget c) head).2)
      | .spill => (o.1, if sh.2 then r.capacity head else share, o.2), fun x hx => ?_⟩
  rcases (inService_iff x).1 hx with e | e
  all_goals
    unfold State.retarget
    rw [e]
    dsimp only
    cases hh : x.holder with
    | some _ => rfl
    | none =>
      dsimp only [r]
      cases (s.active.channel c).kind <;> rfl

/-- A channel that a recompute has aimed is aimed so again. -/
theorem retarget_again (s : State) (sh : List Share × Bool) (c : Nat) (x : Channel) :
    s.retarget sh c (s.retarget sh c x) = s.retarget sh c x := by
  by_cases h : x.inService = true
  · obtain ⟨w, hw⟩ := retarget_inService s sh c
    have hs := hw x h
    have hi : (s.retarget sh c x).inService = true := by rw [hs, settle_inService]; exact h
    have hh : (s.retarget sh c x).holder = x.holder := by rw [hs, settle_holder]; rfl
    have ho : (s.retarget sh c x).localOpening = x.localOpening := by
      rw [hs]
      unfold Channel.settle
      split <;> rfl
    rw [hw _ hi, hh, ho, hs, aim_settle_again]
  · have hx : ¬(x.state = .ready ∨ x.state = .moving) := fun e => h ((inService_iff x).2 e)
    cases e : x.state with
    | ready => exact absurd (.inl e) hx
    | moving => exact absurd (.inr e) hx
    | tripped => simp [State.retarget, e, Channel.aim]
    | offline => simp [State.retarget, e]
    | bringup | fault => cases hh : x.holder <;> simp [State.retarget, e, Channel.localAim, hh]

seal gen0 gen1 put0 put1 get0 get1

/-- R123: the spill distribution of dam k in a state with the same records, heads and available channels. -/
theorem spillShares_congr {s t : State} {k : Nat} (ha : t.active = s.active) (hc : t.claims = s.claims)
    (hk : t.clock = s.clock) (hp : t.plans = s.plans)
    (hh : ∀ c, s.active.inDam k c = true → t.chanHead c = s.chanHead c)
    (hv : ∀ c, s.active.inDam k c = true → (t.chan c).available = (s.chan c).available) :
    t.spillShares k = s.spillShares k := by
  have e1 : t.spillTarget k = s.spillTarget k := by
    simp only [State.spillTarget, State.compensation, State.planAt, hc, hk, hp]
  have e2 : t.spillChannels k = s.spillChannels k := by
    unfold State.spillChannels
    rw [ha]
    refine List.filter_congr fun c hin => ?_
    rw [hv c (by simpa [TableSet.damChannels] using (List.mem_filter.1 hin).2)]
  have e3 : ((t.spillChannels k).map fun c => (c, t.capacity c)) = (s.spillChannels k).map fun c => (c, s.capacity c) := by
    rw [e2]
    refine List.map_congr_left fun c hin => ?_
    have hin' := (List.mem_filter.1 hin).1
    have : s.active.inDam k c = true := by simpa [TableSet.damChannels] using (List.mem_filter.1 hin').2
    simp only [State.capacity, ha, hh c this]
  unfold State.spillShares
  rw [e1, e3]

/-- R122: a channel is aimed alike in a state with the same records and the same head of its dam. -/
theorem retarget_congr {s t : State} {c : Nat} (ha : t.active = s.active) (hc : t.claims = s.claims)
    (hk : t.clock = s.clock) (hh : t.chanHead c = s.chanHead c) (sh : List Share × Bool) (x : Channel) :
    t.retarget sh c x = s.retarget sh c x := by
  simp only [State.retarget, State.unitTarget, ha, hc, hk, hh]

/-- The targets of a dam stand where a recompute of each of its channels changes none. -/
theorem aimed_iff (s : State) (k : Nat) : s.aimed k ↔
    ∀ c < 32, s.active.inDam k c = true → s.retarget (s.spillShares k) c (s.chan c) = s.chan c := by
  unfold State.aimed
  rw [recompute_channels]
  constructor
  · intro h c hc hin
    have e : get0 (gen0 fun c => if s.active.inDam k c then s.retarget (s.spillShares k) c (s.chan c) else s.chan c :
        Tab 32 Channel) c = s.chan c := congrArg (fun x => get0 x c) h
    rw [get0_gen0_lt _ hc, if_pos hin] at e
    exact e
  · intro h
    refine tab_ext0 _ _ fun c hc => ?_
    rw [get0_gen0_lt _ hc]
    split
    · next hin => exact h c hc hin
    · rfl

theorem recompute_chan_eq (s : State) (k : Nat) {c : Nat} (hc : c < 32) : (s.recompute k).chan c =
    if s.active.inDam k c then s.retarget (s.spillShares k) c (s.chan c) else s.chan c := by
  unfold State.chan
  rw [recompute_channels, get0_gen0_lt _ hc]
  rfl

theorem recompute_available (s : State) (k c : Nat) : ((s.recompute k).chan c).available = (s.chan c).available := by
  by_cases hc : c < 32
  · rw [recompute_chan_eq s k hc]
    split
    · exact retarget_available s _ c _
    · rfl
  · simp only [State.chan, get0_ge _ (Nat.le_of_not_lt hc)]

/-- A recompute leaves the spill distribution of every dam. -/
theorem recompute_spillShares (s : State) (j k : Nat) : (s.recompute j).spillShares k = s.spillShares k := by
  have e := eq_of_sansTargets (recompute_sansTargets s j)
  have hh : ∀ c, (s.recompute j).chanHead c = s.chanHead c := fun c => by rw [e]; rfl
  refine spillShares_congr ?_ ?_ ?_ ?_ (fun c _ => hh c) (fun c _ => recompute_available s j c) <;> rw [e]

/-- R122: a recompute stands. -/
theorem recompute_aimed (s : State) (k : Nat) : (s.recompute k).aimed k := by
  rw [aimed_iff]
  intro c hc hin
  have e := eq_of_sansTargets (recompute_sansTargets s k)
  have ha : (s.recompute k).active = s.active := by rw [e]
  have hc' : (s.recompute k).claims = s.claims := by rw [e]
  have hk : (s.recompute k).clock = s.clock := by rw [e]
  have hh : (s.recompute k).chanHead c = s.chanHead c := by rw [e]; rfl
  rw [ha] at hin
  rw [recompute_spillShares, retarget_congr ha hc' hk hh, recompute_chan_eq s k hc, if_pos hin, retarget_again]

end Sys2Proof.Machine
end

