-- ==== Sys2Proof/Laws/Image.lean ====
section
/-! SUPPORT. Laws of the stored image's checksum. -/

namespace Sys2Proof.Machine

/-- The CRC-32 takes the bytes one after another. -/
theorem crc32From_eq_foldl : ∀ (l : List Byte) (c : BitVec 32), crc32From l c = l.foldl crc32Byte c
  | [], _ => rfl
  | b :: l, c => by
    have h : BitVec.ofNat 32 (crc32Byte c b).toNat = crc32Byte c b := by simp
    rw [crc32From, List.foldl_cons]
    split
    · next e => rw [crc32From_eq_foldl l, ← h, e]
    · next n e => rw [crc32From_eq_foldl l, ← Nat.succ_eq_add_one, ← e, h]

theorem crc32_append (a b : List Byte) : crc32 (a ++ b) = b.foldl crc32Byte (crc32 a) := by
  simp only [crc32, crc32From_eq_foldl, List.foldl_append]

end Sys2Proof.Machine
end

