-- ==== Sys2Proof/Laws/Latches.lean ====
section
/-! SUPPORT. Which kinds the shared operations latch, both ways: a raise latches its kind in its scope and nothing else, a recompute of
targets nothing but SPILL_SHORTFALL, an outflow report nothing but ROUTING_COARSENED, and a pass that takes its bases only those two. -/

namespace Sys2Proof.Machine

/-! ### The relation -/

theorem exactly_of_links {s t : State} {aside : List Condition} (h : t.links = s.links) :
    s.latchesExactly t aside fun _ _ => False := by
  intro l _ c _
  have : t.linkAt l = s.linkAt l := by unfold State.linkAt; rw [h]
  simp [this]

theorem exactly_refl (s : State) (aside : List Condition) : s.latchesExactly s aside fun _ _ => False := exactly_of_links rfl

theorem exactly_trans {s t u : State} {aside : List Condition} {P Q : Condition → Nat → Prop}
    (h : s.latchesExactly t aside P) (h' : t.latchesExactly u aside Q) :
    s.latchesExactly u aside fun c l => P c l ∨ Q c l := by
  intro l hl c hc
  rw [h' l hl c hc, h l hl c hc, or_assoc]

/-- What is raised may be said in other words. -/
theorem exactly_congr {s t : State} {aside : List Condition} {P Q : Condition → Nat → Prop}
    (h : s.latchesExactly t aside P) (e : ∀ l ∈ linkNumbers, ∀ c, c ∉ aside → (P c l ↔ Q c l)) :
    s.latchesExactly t aside Q := by
  intro l hl c hc
  rw [h l hl c hc, e l hl c hc]

/-- More kinds may be set aside. -/
theorem exactly_aside {s t : State} {a b : List Condition} {P : Condition → Nat → Prop}
    (h : s.latchesExactly t a P) (e : ∀ c ∈ a, c ∈ b) : s.latchesExactly t b P :=
  fun l hl c hc => h l hl c fun ha => hc (e c ha)

theorem nothing_trans {s t u : State} {aside : List Condition} (h : s.latchesExactly t aside fun _ _ => False)
    (h' : t.latchesExactly u aside fun _ _ => False) : s.latchesExactly u aside fun _ _ => False :=
  exactly_congr (exactly_trans h h') fun _ _ _ _ => by simp

/-- A state with the same links latches what the other does. -/
theorem exactly_from {s t u : State} {aside : List Condition} {P : Condition → Nat → Prop} (h : t.links = s.links)
    (h' : t.latchesExactly u aside P) : s.latchesExactly u aside P :=
  exactly_congr (exactly_trans (exactly_of_links h) h') fun _ _ _ _ => by simp

/-- What latches nothing more may follow. -/
theorem exactly_then {s t u : State} {aside : List Condition} {P : Condition → Nat → Prop} (h : s.latchesExactly t aside P)
    (h' : t.latchesExactly u aside fun _ _ => False) : s.latchesExactly u aside P :=
  exactly_congr (exactly_trans h h') fun _ _ _ _ => by simp

theorem nothing_foldl {α : Type} {aside : List Condition} {f : State → α → State}
    (h : ∀ (s : State) (a : α), s.latchesExactly (f s a) aside fun _ _ => False) :
    ∀ (l : List α) (s : State), s.latchesExactly (l.foldl f s) aside fun _ _ => False
  | [], s => exactly_refl s aside
  | a :: l, s => nothing_trans (h s a) (nothing_foldl h l (f s a))

/-! ### Raising -/

theorem startTx_latched (x : TxContext) (l : Link) : (Link.startTx x l).latched = l.latched := by
  have first : ∀ y : Link, y.readyFirst.latched = y.latched := fun y => by
    unfold Link.readyFirst
    split
    · split <;> rfl
    · rfl
  unfold Link.startTx
  split
  · rfl
  · rfl
  · unfold Link.sendFirst
    split
    · rfl
    · extract_lets a b c
      have hb : b.latched = a.latched := by
        show (if _ then _ else _ : Link).latched = _
        split <;> rfl
      have hc : c.latched = b.latched := by
        show (if _ then _ else _ : Link).latched = _
        split <;> rfl
      rw [first, hc, hb]
  · rfl

theorem latch_latched (x : TxContext) (c : Condition) (l : Link) : (Link.latch x c l).latched = l.latched ||| c.bit := by
  unfold Link.latch
  split
  · rw [startTx_latched]
    rfl
  · rfl

/-- The bit of a kind stands in a set with another kind's added, if it stood or is the one added. -/
theorem bit_added (v : BitVec 12) (c d : Condition) : (v ||| c.bit) &&& d.bit = d.bit ↔ v &&& d.bit = d.bit ∨ d = c := by
  have dist : (v ||| c.bit) &&& d.bit = (v &&& d.bit) ||| (c.bit &&& d.bit) := by
    apply BitVec.eq_of_getLsbD_eq
    intro i hi
    simp only [BitVec.getLsbD_and, BitVec.getLsbD_or, Bool.and_or_distrib_right]
  by_cases h : d = c
  · subst h
    rw [dist, BitVec.and_self]
    refine ⟨fun _ => .inr rfl, fun _ => ?_⟩
    apply BitVec.eq_of_getLsbD_eq
    intro i hi
    simp only [BitVec.getLsbD_and, BitVec.getLsbD_or]
    cases v.getLsbD i <;> simp
  · have z : c.bit &&& d.bit = 0#12 := by
      revert h
      cases c <;> cases d <;> decide
    rw [dist, z, BitVec.or_zero]
    simp [h]

/-- R160: a raise latches its kind on every link of its scope, and nothing else. -/
theorem raise_exactly (s : State) (c : Condition) (f : Nat → Bool) :
    s.latchesExactly (s.raise c f) [] fun d l => d = c ∧ f l = true := by
  intro l hl d _
  have hl' : 1 ≤ l ∧ l ≤ 4 := by
    simp only [linkNumbers, List.mem_cons, List.not_mem_nil, or_false] at hl
    omega
  unfold State.raise
  rw [linkAt_gen1, if_pos hl']
  split
  · next h =>
    rw [latch_latched, bit_added]
    simp [h]
  · next h => simp [h]

theorem raiseDam_exactly (s : State) (c : Condition) (k : Nat) :
    s.latchesExactly (s.raiseDam c k) [] fun d l => d = c ∧ s.inScope k l = true := raise_exactly s c _

theorem raiseOwner_exactly (s : State) (c : Condition) (owner : Nat) :
    s.latchesExactly (s.raiseOwner c owner) [] fun d l => d = c ∧ l = owner :=
  exactly_congr (raise_exactly s c _) fun _ _ _ _ => by simp

theorem raiseAll_exactly (s : State) (c : Condition) : s.latchesExactly (s.raiseAll c) [] fun d _ => d = c :=
  exactly_congr (raise_exactly s c _) fun _ _ _ _ => by simp

/-- A kind set aside may be raised. -/
theorem raise_aside (s : State) (c : Condition) (f : Nat → Bool) {aside : List Condition} (h : c ∈ aside) :
    s.latchesExactly (s.raise c f) aside fun _ _ => False :=
  exactly_congr (exactly_aside (raise_exactly s c f) (by simp)) fun _ _ d hd =>
    ⟨fun e => hd (e.1 ▸ h), False.elim⟩

/-! ### The shared operations -/

variable (s : State)

/-- R124: a recompute latches nothing but SPILL_SHORTFALL. -/
theorem recompute_latches_nothing (k : Nat) : s.latchesExactly (s.recompute k) [.spillShortfall] fun _ _ => False := by
  unfold State.recompute
  extract_lets sh ch t
  have h : t.links = s.links := rfl
  split
  · exact exactly_from h (raise_aside t _ _ (by simp))
  · exact exactly_of_links h

/-- R40: a push latches nothing but ROUTING_COARSENED. -/
theorem push_latches_nothing (k flow : Nat) : s.latchesExactly (s.push k flow) [.routingCoarsened] fun _ _ => False := by
  unfold State.push
  extract_lets ready new t
  have h : t.links = s.links := rfl
  split
  · exact exactly_from h (raise_aside t _ _ (by simp))
  · exact exactly_of_links h

theorem outflowReport_latches_nothing (k flow : Nat) :
    s.latchesExactly (s.outflowReport k flow) [.routingCoarsened] fun _ _ => False := by
  unfold State.outflowReport
  extract_lets _ t
  have h : t.links = s.links := rfl
  split
  · exact exactly_from h (push_latches_nothing t _ _)
  · exact exactly_of_links h

/-- R128: a new actual flow latches nothing but what its outflow report does. -/
theorem setActualIn_latches_nothing (u : TableSet) (c flow : Nat) :
    s.latchesExactly (s.setActualIn u c flow) [.routingCoarsened] fun _ _ => False := by
  unfold State.setActualIn
  split
  · exact exactly_refl s _
  · extract_lets _ t
    have h : t.links = s.links := rfl
    split
    · split
      · exact exactly_from h (outflowReport_latches_nothing t _ _)
      · exact exactly_of_links h
    · exact exactly_of_links h

theorem reformFlow_latches_nothing (c : Nat) :
    s.latchesExactly (s.reformFlow c) [.routingCoarsened] fun _ _ => False := by
  unfold State.reformFlow
  split
  · exact setActualIn_latches_nothing s _ _ _
  · exact exactly_refl s _

theorem reformDam_latches_nothing (k : Nat) : s.latchesExactly (s.reformDam k) flowKinds fun _ _ => False :=
  nothing_foldl (f := State.reformFlow)
    (fun u c => exactly_aside (reformFlow_latches_nothing u c) (by simp [flowKinds])) (s.active.damChannels k) s

/-- R33: a level notice latches only the kinds of targets and outflow. -/
theorem levelNotice_latches_nothing (b : Tab 6 Nat) : s.latchesExactly (s.levelNotice b) flowKinds fun _ _ => False := by
  refine nothing_foldl (fun t k => ?_) s.active.damNumbers s
  have h : t.latchesExactly ((t.reformDam k).recompute k) flowKinds fun _ _ => False :=
    nothing_trans (t := t.reformDam k) (reformDam_latches_nothing t k)
      (exactly_aside (recompute_latches_nothing (t.reformDam k) k) (by simp [flowKinds]))
  split
  · exact exactly_refl t _
  · exact h

/-- R162: a band flag is no latched kind. -/
theorem evaluateBand_latches_nothing (k : Nat) : s.latchesExactly (s.evaluateBand k) [] fun _ _ => False := by
  unfold State.evaluateBand
  split
  · split
    · intro l hl c _
      have hl' : 1 ≤ l ∧ l ≤ 4 := by
        simp only [linkNumbers, List.mem_cons, List.not_mem_nil, or_false] at hl
        omega
      unfold State.outOfBand
      rw [linkAt_gen1, if_pos hl']
      split <;> simp
    · exact exactly_refl s _
  · exact exactly_refl s _

/-- R63: stage 1 of a pass latches only the kinds of targets and outflow. -/
theorem takeBases_latches_nothing : s.latchesExactly s.takeBases flowKinds fun _ _ => False := by
  unfold State.takeBases
  extract_lets t0 bin before pools rates dams reaches _ pass t
  have h : t.links = s.links := rfl
  exact exactly_from h (nothing_trans
    (nothing_foldl (fun u k => exactly_aside (evaluateBand_latches_nothing u k) (by simp)) _ t)
    (levelNotice_latches_nothing _ _))

theorem startPass_latches_nothing : s.latchesExactly s.startPass flowKinds fun _ _ => False := by
  unfold State.startPass
  extract_lets _ t
  have h : t.links = s.links := rfl
  split
  · exact exactly_of_links rfl
  · exact exactly_from h (takeBases_latches_nothing t)

/-- R52: an early-pass request latches only the kinds of targets and outflow. -/
theorem requestPass_latches_nothing : s.latchesExactly s.requestPass flowKinds fun _ _ => False := by
  unfold State.requestPass
  split
  · exact exactly_refl s _
  · split
    · exact exactly_of_links rfl
    · exact startPass_latches_nothing s

theorem reexamine_latches_nothing : s.latchesExactly s.reexamine flowKinds fun _ _ => False := by
  unfold State.reexamine
  split
  · exact takeBases_latches_nothing s
  · exact exactly_refl s _

end Sys2Proof.Machine
end

