-- ==== Sys2Proof/Laws/Reaches.lean ====
section
/-! SUPPORT. The volume answer of a step queue as a sum over seconds, and what the retirement before a push makes of a reach. -/

namespace Sys2Proof.Machine

theorem arrivals_nil (travel a e : Nat) : arrivals travel [] a e = 0 := by
  simp [arrivals, rateAt]

theorem arrivals_one (travel : Nat) (p : RoutingStep) (a e : Nat) : arrivals travel [p] a e = p.flow * (e - a) := by
  simp [arrivals, rateAt, Nat.mul_comm]

theorem arrivals_empty (travel : Nat) (queue : List RoutingStep) {a e : Nat} (h : e ≤ a) : arrivals travel queue a e = 0 := by
  simp [arrivals, Nat.sub_eq_zero_of_le h]

/-- R45: the seconds of a volume answer may be split at any of them. -/
theorem arrivals_split (travel : Nat) (queue : List RoutingStep) {a m e : Nat} (h : a ≤ m) (h' : m ≤ e) :
    arrivals travel queue a e = arrivals travel queue a m + arrivals travel queue m e := by
  have hn : e - a = (m - a) + (e - m) := by omega
  have hm : ∀ i, a + (m - a + i) = m + i := fun i => by omega
  simp only [arrivals, hn, List.range_add, List.map_append, List.map_map, List.sum_append, Function.comp_def, hm]

theorem arrivals_congr (travel travel' : Nat) (q q' : List RoutingStep) {a e : Nat}
    (h : ∀ t, a ≤ t → t < e → rateAt travel q t = rateAt travel' q' t) : arrivals travel q a e = arrivals travel' q' a e := by
  unfold arrivals
  congr 1
  refine List.map_congr_left fun i hi => ?_
  have := List.mem_range.1 hi
  exact h _ (by omega) (by omega)

/-- R45: the volume answer is the sum of the inflow rates of its seconds. -/
theorem volumeBetween_eq_arrivals (travel : Nat) : ∀ (queue : List RoutingStep) (a e : Nat),
    volumeBetween travel queue a e = arrivals travel queue a e
  | [], a, e => by rw [arrivals_nil]; rfl
  | [p], a, e => by rw [arrivals_one]; rfl
  | p :: q :: rest, a, e => by
    rw [volumeBetween, volumeBetween_eq_arrivals travel (q :: rest)]
    have before : ∀ x y, y ≤ q.arrival travel → arrivals travel (p :: q :: rest) x y = p.flow * (y - x) := fun x y hy => by
      rw [← arrivals_one travel p]
      refine arrivals_congr _ _ _ _ fun t _ ht => ?_
      simp only [rateAt, if_neg (show ¬ q.arrival travel ≤ t by omega)]
    have behind : ∀ x y, q.arrival travel ≤ x →
        arrivals travel (p :: q :: rest) x y = arrivals travel (q :: rest) x y := fun x y hx => by
      refine arrivals_congr _ _ _ _ fun t ht _ => ?_
      rw [rateAt, if_pos (by omega)]
    by_cases h1 : e ≤ q.arrival travel
    · rw [before a e h1, arrivals_empty travel (q :: rest) (by omega), Nat.min_eq_left h1, Nat.add_zero]
    · by_cases h2 : q.arrival travel ≤ a
      · rw [behind a e h2, Nat.max_eq_left h2, show min e (q.arrival travel) - a = 0 by omega, Nat.mul_zero, Nat.zero_add]
      · rw [arrivals_split travel (p :: q :: rest) (show a ≤ q.arrival travel by omega) (show q.arrival travel ≤ e by omega),
          before a _ (Nat.le_refl _), behind _ e (Nat.le_refl _), Nat.min_eq_right (by omega), Nat.max_eq_right (by omega)]

@[simp] theorem countTo_queue (r : Reach) (travel cut : Nat) : (r.countTo travel cut).queue = r.queue := rfl
@[simp] theorem countTo_coarsened (r : Reach) (travel cut : Nat) : (r.countTo travel cut).coarsened = r.coarsened := rfl
@[simp] theorem countTo_cut (r : Reach) (travel cut : Nat) : (r.countTo travel cut).cut = cut := rfl
@[simp] theorem retire_queue (r : Reach) (travel cut : Nat) : (r.retire travel cut).queue = dropArrived travel cut r.queue := rfl
@[simp] theorem retire_cut (r : Reach) (travel cut : Nat) : (r.retire travel cut).cut = cut := rfl
@[simp] theorem retire_arrived (r : Reach) (travel cut : Nat) :
    (r.retire travel cut).arrived = (r.countTo travel cut).arrived := rfl

/-- R41: counting the arrived water to a cut removes no step. -/
theorem countTo_counted (r : Reach) (travel cut : Nat) : r.countedTo (r.countTo travel cut) travel cut := by
  unfold Reach.countTo
  rw [volumeBetween_eq_arrivals]

/-- R41, R64: the reach made ready for a push is retired before stage 2 of a RUNNING pass and out of one, and only counted after it. -/
theorem readiedReach_eq (s : State) (k : Nat) :
    s.readiedReach k =
      if s.pass.state = .running ∧ s.pass.stage ≠ .routing then
        (s.reachAt k).countTo (s.active.reach k).travel s.pushCut
      else (s.reachAt k).retire (s.active.reach k).travel s.pushCut := by
  unfold State.readiedReach State.pushRemoves
  by_cases h : s.pass.state = .running <;> by_cases h' : s.pass.stage = .routing <;> simp [h, h']

end Sys2Proof.Machine
end

