-- ==== Sys2Proof/Tests/Slice0.lean ====
section
/-! SUPPORT. The model's own tests: ill-formed commands are refused, worked examples of the manual come out as it gives them, and
the hypotheses of the statements are met somewhere. -/

namespace Sys2Proof.Tests

open Sys2Proof.Machine

set_option Elab.async false

/-! ### A small cascade -/

/-- The storage table and levels of pool P2 of section 1.9. -/
def poolP2 : PoolRec :=
  { points := #v[(40000, 0), (40200, 4000000), (40400, 9000000), (40600, 15000000), (40800, 22000000),
      (41000, 30000000), (41200, 39000000), (41400, 49000000), (41600, 60000000)]
    floor := 40350, ceiling := 41100, flood := 41330, reserve := 2000000 }

/-- The rating of channel C5 of section 7.10, at the factor 1024. -/
def unitC5 : ChanRec := { rating := #v[0, 400, 900, 1500, 2200, 3000, 3900, 4900, 6000] }

/-- A spill gate of the same rating. -/
def gateC5 : ChanRec := { unitC5 with kind := .spill }

/-- Two dams, each with a unit and a spill gate; Link 1 SERVICE, Link 2 FLOOD, Link 3 STATION of D1, Link 4 DISPATCH. -/
def twoDams : TableSet :=
  { emptySet with
    cascade := { damCount := 2 }
    dams := #v[{ firstChannel := 0, channelCount := 2 }, { firstChannel := 2, channelCount := 2, qBelow := 12000 }, {}, {}, {}, {}]
    pools := #v[poolP2, poolP2, {}, {}, {}, {}]
    reaches := #v[{ travel := 1500 }, {}, {}, {}, {}]
    channels := gen0 fun c => if c < 4 then (if c % 2 = 0 then unitC5 else gateC5) else {}
    links := #v[{ cls := .service }, { cls := .flood }, { cls := .station, dam := 1 }, { cls := .dispatch }] }

/-- A channel in READY at opening 0. -/
def readyChannel : Channel :=
  { state := .ready, target := some 0, targetFlow := some 0, setpoint := some 0, measured := some 0
    rampTimer := some 1002, feedbackTimer := some 1003 }

/-- A link that is up and quiet. -/
def upLink : Link := { up := true, timer := some 1010, lastFrame := some 1000 }

/-- The cascade in HOLD with good gauges, channels in READY and a published forecast. -/
def live : State :=
  { State.reset with
    clock := 1000, mode := .hold, loadResult := .valid, active := twoDams, working := twoDams, limits := twoDams.limits
    gauges := gen1 fun g => if g ≤ 2 then { state := .good, accepted := some 41000, timer := some 1060 } else {}
    pools := gen1 fun k => if k ≤ 2 then { basis := some 30000000 } else {}
    pass := { timer := some 1120 }
    forecast := some { start := 960, bin := 600, pools := gen1 fun _ => { storage := Vector.replicate 12 30000000 } }
    channels := gen0 fun c => if c < 4 then readyChannel else {}
    links := Vector.replicate 4 upLink
    store := { image := twoDams } }

/-- The same in COORDINATE. -/
def coordinating : State := { live with mode := .coordinate }

/-- The same in SERVICE. -/
def inService : State := { live with mode := .service }

/-- The same with a pass that makes a stage next. -/
def making (s : State) (st : Stage) : State :=
  { s with pass := { s.pass with
      state := .running, stage := st, forecast := { start := 1000, bin := 600 } } }

/-- One channel of a state rewritten. -/
def withChan (s : State) (c : Nat) (f : Channel → Channel) : State := s.setChan c (f (s.chan c))

/-- One link of a state rewritten. -/
def withLink (s : State) (l : Nat) (f : Link → Link) : State := s.setLink l (f (s.linkAt l))

/-- A claim of Link 3 on unit 0 in slot 0, granted. -/
def unitClaim : Claim :=
  { handle := 64, owner := 3, group := .station, urgency := 2, dam := 1, kind := .turbine 0, requested := 1200
    minimum := 1, start := 1000, finish := none, state := .granted, grant := 1200 }

/-- A state with claims, their slots at generation 1. -/
def withClaims (s : State) (l : List Claim) : State :=
  { s with claims := l, generations := Vector.replicate 64 1 }

/-- The state after a command, where it gives one. -/
def after (c : Instr) (s : State) : State :=
  match exec c s with
  | .next t => t
  | .fault _ => s
  | .refused _ => s

/-- The unit of a TURBINE claim. -/
def unitsOf (c : Claim) : List Nat :=
  match c.kind with
  | .turbine u => [u]
  | .spill => []

/-- State.unitsOk in a form that decides. -/
theorem unitsOk_iff (s : State) : s.unitsOk ↔ ∀ c ∈ s.claims, ∀ u ∈ unitsOf c,
    s.active.damOf u = some c.dam ∧ (s.active.channel u).kind = .turbine := by
  refine forall₂_congr fun c _ => forall_congr' fun u => ?_
  cases h : c.kind <;> simp [unitsOf, h, eq_comm]

theorem test_twoDams_valid : twoDams.validate = none := by decide +kernel

/-! ### Commands that cannot reach the part -/

theorem test_wf_link : (Instr.ping 0 0).wf = false ∧ (Instr.ping 5 0).wf = false := by decide
theorem test_wf_tag : (Instr.ping 1 256).wf = false := by decide
theorem test_wf_channel : (Instr.rampStep 32).wf = false := by decide
theorem test_wf_gauge : (Instr.gaugeTimerExpiry 8).wf = false ∧ (Instr.gaugeReading 0 0 true).wf = false := by decide
theorem test_wf_level : (Instr.gaugeReading 1 65536 true).wf = false := by decide
theorem test_wf_slot : (Instr.claimStartReached 64).wf = false := by decide
theorem test_wf_index : (Instr.takeLocal 1 0 256).wf = false := by decide
theorem test_wf_handle : (Instr.withdraw 1 0 65536).wf = false := by decide
theorem test_wf_kind : (Instr.unknownKind 1 0 20).wf = false ∧ (Instr.unknownKind 1 0 21).wf = true := by decide
theorem test_wf_rates : (Instr.declareInflow 1 0 1 []).wf = false ∧
    (Instr.declareInflow 1 0 1 (List.replicate 13 0)).wf = false := by decide
theorem test_wf_release : (Instr.release 1 0 ⟨1, 0, 0, 0, 0, 65536, 0, 0, 0⟩).wf = false ∧
    (Instr.release 1 0 ⟨1, 0, 0, 0, 0, 1, 0, 4294967296, 0⟩).wf = false := by decide
theorem test_wf_record : (Instr.writeTable 1 0 (.reach 65536 0) 1).wf = false ∧
    (Instr.writeTable 1 0 (.unknown 8) 0).wf = false := by decide
theorem test_wf_refused : exec (.ping 0 0) State.reset = .refused .illFormed := rfl

/-! ### Worked examples of the manual -/

/-- R146: the check value of the CRC. -/
theorem test_crc : crc16 [0x31, 0x32, 0x33, 0x34, 0x35, 0x36, 0x37, 0x38, 0x39] = 0x29B1#16 := by decide +kernel

/-- R169: the check value of the CRC-32 of this polynomial with an initial value of ones, no reflection and no inversion. -/
theorem test_crc32 : crc32 [0x31, 0x32, 0x33, 0x34, 0x35, 0x36, 0x37, 0x38, 0x39] = 0x0376E6E7#32 := by decide +kernel

/-- R154: an image carries every field of every slot: 7, 6 × 9, 6 × 68, 5 × 4, 32 × 56, 4 × 7, 2 and 4 bytes. -/
theorem test_image : emptySet.bytes.length = 2315 := by decide +kernel

/-- Section 1.9. -/
theorem test_limits : poolP2.limits = { floor := 7750000, ceiling := 34500000, flood := 45500000 } := by decide +kernel

/-- Section 1.9: the reserve of a pool whose gauge is LOST. -/
theorem test_reserve :
    let s := live.setGauge 1 { live.gauge 1 with state := .lost }
    s.floorLimit 1 = 9750000 ∧ s.ceilingLimit 1 = 32500000 ∧ s.floodLimit 1 = 43500000 := by decide +kernel

/-- Section 1.9: a channel that lies in the ranges of two dams. -/
theorem test_bad_table :
    { twoDams with
      cascade := { damCount := 3 }
      dams := #v[{ channelCount := 4 }, { firstChannel := 4, channelCount := 3 },
        { firstChannel := 6, channelCount := 2 }, {}, {}, {}] }.validate = some (2, 3) := by decide +kernel

/-- Section 2.8: the storage at a level, and the reckoned level at a storage. -/
theorem test_storage_and_level :
    poolP2.storageAt 41040 = 31800000 ∧ poolP2.storageAt 41230 = 40500000 ∧
    poolP2.levelAt 32808000 = 41062 ∧ poolP2.levelAt 32958000 = 41065 := by decide +kernel

/-- Section 2.8: a reading held as the candidate, and the one that confirms it. -/
theorem test_candidate :
    let s := live.setGauge 1 { live.gauge 1 with accepted := some 41060 }
    let t := after (.gaugeReading 1 41200 true) s
    (t.gauge 1).candidate = some 41200 ∧ (t.gauge 1).accepted = some 41060 ∧
    ((after (.gaugeReading 1 41230 true) t).gauge 1).accepted = some 41230 ∧
    ((after (.gaugeReading 1 41230 true) t).poolAt 1).basis = some 40500000 := by decide +kernel

/-- Section 3.8: the reach after the reports of 20,030 and 20,050. -/
theorem test_step_queue :
    let s := { live with
      clock := 20030
      dams := put1 live.dams 1 { outflow := 4600, mark := 20000 }
      reaches := put1 live.reaches 1
        { queue := [{ flow := 4000, departure := 18100 }, { flow := 4600, departure := 19200 }], cut := 20000 } }
    let t := s.outflowReport 1 4605
    let u := ({ t with clock := 20050 }.outflowReport 1 4620).outflowReport 1 5300
    (t.damAt 1).volume = 138000 ∧ (t.reachAt 1).arrived = 120000 ∧ (u.damAt 1).volume = 230100 ∧
    (u.reachAt 1).arrived = 200000 ∧ (u.reachAt 1).queue.getLast? = some { flow := 5300, departure := 20050 } := by
  decide +kernel

/-- R41, R64: on a reach without travel time a push removes what has arrived before stage 2 of a RUNNING pass, and nothing after it. -/
theorem test_push_after_stage_2 :
    let s := { live with
      clock := 1001, active := { twoDams with reaches := put1 twoDams.reaches 1 {} }
      reaches := put1 live.reaches 1
        { queue := [{ flow := 4000, departure := 900 }, { flow := 4600, departure := 1000 }], cut := 1000 } }
    let flows := fun (u : State) => ((u.outflowReport 1 5300).reachAt 1).queue.map (·.flow)
    flows (making s .routing) = [4600, 5300] ∧ flows (making s .base) = [4000, 4600, 5300] ∧
    ((making s .base).outflowReport 1 5300).reachAt 1 =
      { (s.reachAt 1) with queue := (s.reachAt 1).queue ++ [{ flow := 5300, departure := 1001 }] } := by decide +kernel

/-- Section 5.11: the bounds (A) and (B) of a SPILL claim of D1. -/
theorem test_bounds :
    let f : Forecast :=
      { start := 50000, bin := 600
        pools := #v[{ storage := Vector.replicate 12 80000000 },
          { storage := #v[51000000, 51200000, 51500000, 51900000, 52400000, 52400000, 52400000, 52400000, 52400000,
              52400000, 52400000, 52400000] }, {}, {}, {}, {}] }
    let s := { live with limits := #v[{ floor := 70000000 }, { ceiling := 60000000 }, {}, {}, {}, {}] }
    let c : Claim := { unitClaim with kind := .spill, requested := 3000, start := 50000, finish := some 53000 }
    s.boundsA c f 50000 =
      [16666, 8333, 5555, 4166, 3333, 3333, 3333, 3333, 3333, 3333, 3333, 3333] ∧
    s.boundsB c f 50000 = [28333, 9000, 5066, 3619, 2814, 2533, 2533, 2533, 2533, 2533] := by decide +kernel

/-- Section 6.4, pass 1: the requirement of D1. -/
theorem test_requirement :
    let s := { making live .forcing with
      limits := #v[{ ceiling := 50000000, flood := 56000000 }, {}, {}, {}, {}, {}]
      pools := put1 live.pools 1 { passBasis := some { storage := 49000000, time := 1000, bin := 600 } } }
    let u := { s with pass := { s.pass with
      rates := put1 s.pass.rates 1 (Vector.replicate 12 12000), dams := put1 s.pass.dams 1 { unmanaged := 4000 } } }
    u.requirement 1 = 7028 := by decide +kernel

/-- Section 7.10: the opening for 1,200 FU at head factor 955. -/
theorem test_rating :
    let r : ChanRec := { unitC5 with heads := #v[(1000, 724), (1500, 887), (2000, 1024), (2500, 1145), (3000, 1254)] }
    r.factor 1750 = 955 ∧ r.capacity 1750 = 5595 ∧ r.openingFor 1200 1750 = (331, false) ∧
    r.flow 331 1750 = 1201 ∧ r.flow 330 1750 = 1197 := by decide +kernel

/-- Section 7.10: the spill shared among three gates, and its shortfall. -/
theorem test_spill_shares :
    (distribute 10001 [(5, 5000), (6, 2000), (7, 5000)]).1.map (·.share) = [4001, 2000, 4000] ∧
    (distribute 13000 [(5, 5000), (6, 2000), (7, 5000)]).2 = true ∧
    (distribute 12000 [(5, 5000), (6, 2000), (7, 5000)]).2 = false := by decide +kernel

/-- Section 7.10: a unit closing on a trip, with trip close limit 100. -/
theorem test_trip_steps :
    let s := withChan { live with active := { twoDams with channels := put0 twoDams.channels 0 { unitC5 with tripLimit := 100 } } }
      0 fun x => { x with setpoint := some 331, target := some 331 }
    let t := after (.tripAssertion 0) s
    let u := after (.rampStep 0) { t with clock := 1002 }
    (t.chan 0).setpoint = some 231 ∧ (t.chan 0).command = some 231 ∧ (t.chan 0).state = .tripped ∧
    (u.chan 0).setpoint = some 131 ∧ (u.chan 0).command = some 131 := by decide +kernel

/-- Section 9.10: a RELEASE waits in a pass, a PING behind it is held, and a fifth frame is answered BUSY at once. -/
theorem test_buffer :
    let s := making coordinating .completion
    let t := after (.ping 4 11) (after (.release 4 10 ⟨1, 0, 0, 2, 0, 500, 0, 0, 0⟩) s)
    let u := after (.queryIdentity 4 14 0) (after (.takeLocal 4 13 0) (after (.queryClaim 4 12 5) t))
    (t.linkAt 4).sending = none ∧ (t.linkAt 4).buffer.map (·.reply.isSome) = [false, true] ∧
    (u.linkAt 4).sending = some (.reply 0x8B 14 (.status .busy)) := by decide +kernel

/-- R164: MODE_CHANGED sends a STATUS frame at once on an idle transmitter, behind the frame being sent on a busy one, and none on a
link that masks it. -/
theorem test_status_at_a_latch :
    let reply := TxFrame.reply 0x81 0 (.status .ok)
    let s := withLink (withLink live 3 fun x => { x with sending := some reply }) 4 fun x => { x with mask := 4095#12 }
    let t := after (.resume 1 0) s
    ((t.linkAt 2).statusSent.map fun q => (q.1, q.2.1)) = some (.coordinate, true) ∧ (t.linkAt 2).statusPending = true ∧
    (t.linkAt 3).sending = some reply ∧ (t.linkAt 3).waiting = [.status] ∧ (t.linkAt 4).sending = none ∧
    (t.linkAt 4).statusPending = false := by decide +kernel

/-- R145, R158: a PING with its CRC written out is taken, and one with another CRC is not. -/
theorem test_ping_frame :
    let crc := (crc16 [0x02, 0x01, 0x07]).toNat
    after (.frameDiscarded 1 ([0x5A, 0x02, 0x01, 0x07] ++ lowBytes 2 crc)) live = after (.ping 1 7) live ∧
    after (.frameDiscarded 1 ([0x5A, 0x02, 0x01, 0x07] ++ lowBytes 2 (crc + 1))) live = live := by decide +kernel

/-! ### The hypotheses of the statements are met -/

theorem witness_StepTakesTheFront : { live with pending := [.ping 1 0, .sweep] }.pending = .ping 1 0 :: [.sweep] := rfl

theorem witness_EmptyQueueLetsASecondPass :
    live.pending = [] ∧ live.clock < 4294967295 ∧
    { live with clock := 4294967295 }.pending = [] ∧ { live with clock := 4294967295 }.clock = 4294967295 := by
  and_intros <;> decide +kernel

theorem witness_WellFormedCommandsComplete : (Instr.ping 4 255).wf = true ∧ (Instr.ping 5 255).wf = false := by decide

theorem witness_EnteringLoading : { live with clock := 4294967295 }.clock = 4294967295 ∧ live.clock ≠ 4294967295 := by
  and_intros <;> decide +kernel

/-- A part in LOADING with a stored image and its checksum field. -/
def loading (image : TableSet) (checksum : Option (BitVec 32)) : State :=
  { State.reset with store := { image := image, checksum := checksum } }

theorem witness_LoadComplete :
    live.mode ≠ .loading ∧
    (let s := loading twoDams (some twoDams.checksum)
     s.mode = .loading ∧ s.quiet ∧ s.linksOk ∧ s.store.checksum = some s.store.image.checksum ∧
     s.store.image.validate = none) ∧
    (let s := loading twoDams none
     s.mode = .loading ∧ s.linksOk ∧ s.store.checksum ≠ some s.store.image.checksum) ∧
    (let s := loading emptySet (some emptySet.checksum)
     s.linksOk ∧ s.store.checksum = some s.store.image.checksum ∧ s.store.image.validate = some (1, 0)) := by
  refine ⟨by decide, ⟨rfl, by decide +kernel, by decide +kernel, rfl, by decide +kernel⟩,
    ⟨rfl, by decide +kernel, by simp [loading]⟩, ⟨by decide +kernel, rfl, by decide +kernel⟩⟩

theorem witness_ModeRequests :
    isRequest 1 0 = true ∧ live.takes 1 ∧ live.linksOk ∧ coordinating.takes 1 ∧ coordinating.linksOk ∧
    live.refusal 1 .resume = none ∧ coordinating.refusal 1 .hold = none ∧ live.refusal 1 .enterService = none := by
  and_intros <;> decide +kernel

/-- A state whose configured gauges are in AWAIT. -/
def awaited (s : State) : State := { s with gauges := Vector.replicate 7 {} }

/-- The three ends of an early-pass request: another pass after the one in flight, a pass DEFERRED, and a pass RUNNING. -/
theorem witness_passRequested :
    (making coordinating .sweep).inFlight = true ∧ (making coordinating .sweep).takes 1 ∧
    (making coordinating .sweep).refusal 1 .hold = none ∧
    (awaited live).inFlight = false ∧ (awaited live).poolAwaits ∧ (awaited live).takes 1 ∧
    (awaited live).refusal 1 .resume = none ∧ (after (.resume 1 0) (awaited live)).pass.state = .deferred ∧
    live.inFlight = false ∧ ¬ live.poolAwaits ∧ (after (.resume 1 0) live).pass.state = .running := by
  and_intros <;> decide +kernel

theorem witness_ModeChangesOnlyAsListed :
    exec (.powerOn) live = .next (after .powerOn live) ∧ (after .powerOn live).mode ≠ live.mode ∧
    (∀ l bytes, Instr.powerOn ≠ .frameDiscarded l bytes) ∧
    exec (.resume 1 0) live = .next (after (.resume 1 0) live) ∧ (after (.resume 1 0) live).mode ≠ live.mode ∧
    (∀ l bytes, Instr.resume 1 0 ≠ .frameDiscarded l bytes) := by
  refine ⟨rfl, by decide +kernel, by simp, rfl, by decide +kernel, by simp⟩

/-- A record of each kind, with an index it may be written at. -/
def rawRecords : List (RawRecord × Nat) :=
  [(.cascade 2 0 60 50, 0), (.dam 0 2 1 0 0, 6), (.pool (Vector.replicate 9 (0, 0)) 0 0 0 0 60 50, 1), (.reach 0 10, 5),
    (.channel 1 (Vector.replicate 9 0) (Vector.replicate 5 (0, 0)) 2 20 20 1000 30 20 3 30 0, 31), (.link 3 1 10 600, 4),
    (.precedence 0 1, 0), (.pass 120 600, 0)]

theorem witness_WriteTableReplacesOneRecord :
    ∀ r ∈ rawRecords, (Instr.writeTable 1 7 r.1 r.2).wf = true ∧ inService.admits 1 (.writeTable r.1 r.2) := by
  decide +kernel

/-- The part with a settings write in flight at a phase. -/
def storing (p : StorePhase) : State := { live with store := { image := emptySet, writing := some (p, twoDams) } }

theorem witness_SettingsStore :
    isRequest 1 0 = true ∧ live.admits 1 .storeSettings ∧ (storing .invalidating).admits 1 .storeSettings ∧
    (storing .invalidating).store.writing = some (.invalidating, twoDams) ∧
    (storing .writingImage).store.writing = some (.writingImage, twoDams) ∧
    (storing .writingChecksum).store.writing = some (.writingChecksum, twoDams) ∧
    live.store.writing = none ∧ live.storeOk ∧ (storing .writingChecksum).storeOk ∧
    (storing .writingChecksum).store.writing.isSome = true := by
  and_intros <;> decide +kernel

theorem witness_ReadingAccepted :
    isGauge 1 = true ∧ fits2 41050 = true ∧ live.mode.running = true ∧ live.gaugeConfigured 1 = true ∧
    live.inWindow 1 41050 = true ∧ live.linksOk ∧
    absDiff 41050 41000 ≤ live.jumpLimit 1 ∧ (live.gauge 1).accepted = some 41000 ∧
    ({ live with gauges := Vector.replicate 7 {} }.gauge 1).accepted = none ∧
    (let s := live.setGauge 1 { live.gauge 1 with state := .lost, candidate := some 41800 }
     s.inWindow 1 41800 = true ∧ (s.gauge 1).candidate = some 41800 ∧ absDiff 41800 41800 ≤ s.jumpLimit 1) := by
  and_intros <;> decide +kernel

/-- A channel whose flow follows the head. -/
def measured (s : State) (c : Nat) : State := withChan s c fun x => { x with measured := some 1000 }

/-- A reading that changes a head and a flow, one out of band, and one that starts a deferred pass. -/
theorem witness_ReadingAccepted_notice :
    (let s := measured live 0
     let t := after (.gaugeReading 1 41050 true) s
     s.setOk ∧ s.linksOk ∧ s.active.hasDam 1 = true ∧ t.head 1 ≠ s.head 1 ∧ 0 ∈ s.active.damChannels 1 ∧
     (t.chan 0).actual ≠ (s.chan 0).actual ∧ s.pass.state ≠ .deferred) ∧
    (let s := live.setGauge 1 { live.gauge 1 with candidate := some 41230 }
     s.setOk ∧ s.linksOk ∧ s.inWindow 1 41230 = true ∧ s.inScope 1 1 = true ∧
     (s.limitsAt 1).ceiling < (s.active.pool 1).storageAt 41230) ∧
    (let u := { live with gauges := Vector.replicate 7 {}, pass := { live.pass with state := .deferred } }
     let v := u.setGauge 2 { live.gauge 2 with state := .lost }
     let s := v.setPool 2 { v.poolAt 2 with passBasis := some { storage := 40500000, time := 1000, bin := 600 } }
     let t := after (.gaugeReading 1 41000 true) s
     s.setOk ∧ s.linksOk ∧ s.inWindow 1 41000 = true ∧ (s.gauge 1).accepted = none ∧ s.pass.state = .deferred ∧
     t.pass.state = .running ∧ (t.gauge 2).state = .lost ∧ s.inScope 2 1 = true ∧
     (t.poolAt 2).basis = some 40500000 ∧ (s.limitsAt 2).ceiling < 40500000) := by
  and_intros <;> decide +kernel

/-- A deferred pass at a pool's reading and at its loss, each while another pool stays in AWAIT, and at the tailwater's. -/
theorem witness_deferred_pass_waits :
    (let s := { awaited { live with clock := 1060 } with pass := { live.pass with state := .deferred } }
     let u := (s.setGauge 1 { timer := some 1060 })
     u.linksOk ∧ u.inWindow 1 41000 = true ∧ (u.gauge 1).accepted = none ∧ u.pass.state = .deferred ∧
     u.due (u.gauge 1).timer = true ∧
     ((after (.gaugeReading 1 41000 true) u).gauge 2).state = .await ∧
     ((after (.gaugeTimerExpiry 1) u).gauge 2).state = .await ∧ 2 ∈ u.active.damNumbers ∧
     (after (.gaugeReading 1 41000 true) u).pass = u.pass) ∧
    (let s := { live with
      active := { twoDams with cascade := { damCount := 2, tailPresent := true } }, pass := { live.pass with state := .deferred } }
     s.linksOk ∧ s.gaugeConfigured 7 = true ∧ s.inWindow 7 0 = true ∧ (s.gauge 7).accepted = none) := by
  and_intros <;> decide +kernel

theorem witness_ReadingNotAccepted :
    isGauge 1 = true ∧ fits2 41051 = true ∧ live.mode.running = true ∧ live.gaugeConfigured 1 = true ∧
    live.inWindow 1 41051 = true ∧ (live.gauge 1).accepted = some 41000 ∧ live.jumpLimit 1 < absDiff 41051 41000 ∧
    (live.gauge 1).candidate = none ∧
    State.reset.mode = .loading ∧ live.active.hasDam 3 = false ∧ live.active.cascade.tailPresent = false ∧
    (get0 (live.active.pool 1).points 8).1 + 200 < 41801 ∧ 39799 + 200 < (get0 (live.active.pool 1).points 0).1 := by
  and_intros <;> decide +kernel

theorem witness_GaugeTimeout :
    isGauge 1 = true ∧ live.due (live.gauge 1).timer = false ∧
    { live with clock := 1060 }.due (live.gauge 1).timer = true ∧ live.linksOk ∧ isGauge 7 = true ∧
    (let s := live.setGauge 7 { timer := some 1000 }
     s.due (s.gauge 7).timer = true ∧ s.linksOk) := by
  and_intros <;> decide +kernel

/-- A loss that changes a head and a flow, and one that starts a deferred pass. -/
theorem witness_GaugeTimeout_notice :
    (let u := { measured live 0 with clock := 1060 }
     let s := u.setPool 1 { u.poolAt 1 with basis := some 31800000 }
     let t := after (.gaugeTimerExpiry 1) s
     s.setOk ∧ s.linksOk ∧ s.due (s.gauge 1).timer = true ∧ t.head 1 ≠ s.head 1 ∧
     (t.chan 0).actual ≠ (s.chan 0).actual ∧ s.pass.state ≠ .deferred) ∧
    (let u := { live with clock := 1060, pass := { live.pass with state := .deferred } }
     let s := u.setGauge 1 { timer := some 1060 }
     s.setOk ∧ s.linksOk ∧ s.due (s.gauge 1).timer = true ∧
     (after (.gaugeTimerExpiry 1) s).pass.state = .running) := by
  and_intros <;> decide +kernel

/-- The cascade at the expiry of its pass timer. -/
def passDue : State := { live with clock := 1120 }

theorem witness_PassTimerExpiry :
    live.due live.pass.timer = false ∧ passDue.due passDue.pass.timer = true ∧ passDue.inFlight = false ∧
    ¬ passDue.poolAwaits ∧ passDue.active.cascade.damCount ≤ 6 ∧ passDue.linksOk ∧
    passDue.active.hasDam 2 = true ∧ (passDue.gauge 2).state ≠ .lost ∧ passDue.active.hasDam 3 = false ∧
    (passDue.reachAt 1).queue = [] ∧
    (let s := { passDue with gauges := Vector.replicate 7 {} }
     s.due s.pass.timer = true ∧ s.inFlight = false ∧ s.poolAwaits) ∧
    (let s := making passDue .routing
     s.due s.pass.timer = true ∧ s.inFlight = true) ∧
    (let s := passDue.setGauge 1 { passDue.gauge 1 with state := .lost }
     s.due s.pass.timer = true ∧ s.inFlight = false ∧ ¬ s.poolAwaits ∧ (s.gauge 1).state = .lost ∧
     (s.poolAt 1).passBasis = none) ∧
    (let u := passDue.setGauge 2 { passDue.gauge 2 with state := .lost }
     let v := u.setReach 1 { queue := [{ flow := 4000, departure := 0 }], cut := 1000 }
     let s := v.setPool 2 { v.poolAt 2 with passBasis := some { storage := 30000000, time := 1000, bin := 600 } }
     s.due s.pass.timer = true ∧ s.inFlight = false ∧ ¬ s.poolAwaits ∧ s.active.cascade.damCount ≤ 6 ∧ s.linksOk ∧
     (s.gauge 2).state = .lost ∧ (s.poolAt 2).passBasis.isSome = true ∧ s.active.hasReach 1 = true ∧
     (s.reachAt 1).queue ≠ []) := by
  and_intros <;> decide +kernel

/-- A reckoned pool out of band, whose level changes a head and a flow. -/
theorem witness_PassTimerExpiry_notice :
    let u := measured passDue 0
    let v := u.setGauge 1 { u.gauge 1 with state := .lost }
    let s := v.setPool 1 { v.poolAt 1 with passBasis := some { storage := 40500000, time := 1000, bin := 600 } }
    let t := after .passTimerExpiry s
    s.due s.pass.timer = true ∧ s.inFlight = false ∧ ¬ s.poolAwaits ∧ s.active.cascade.damCount ≤ 6 ∧ s.linksOk ∧
    s.setOk ∧ s.active.hasDam 1 = true ∧ (s.gauge 1).state = .lost ∧ s.inScope 1 1 = true ∧
    (t.poolAt 1).basis = some 40500000 ∧ (s.limitsAt 1).ceiling < 40500000 ∧ t.head 1 ≠ s.head 1 ∧
    (t.chan 0).actual ≠ (s.chan 0).actual := by
  and_intros <;> decide +kernel

/-- A queue of n steps, one a second to the second 999. -/
def steps (n : Nat) : List RoutingStep := (List.range n).map fun i => { flow := 100 * i, departure := 1000 + i - n }

theorem witness_RoutingUpkeep :
    live.atStage .routing = false ∧ (making live .routing).atStage .routing = true ∧
    (making live .routing).active.cascade.damCount ≤ 6 ∧ (making live .routing).active.hasReach 1 = true ∧
    (making live .routing).active.hasReach 2 = false ∧ ((making live .routing).reachAt 1).queue = [] ∧
    (((making live .routing).setReach 1 { queue := steps 1 }).reachAt 1).queue ≠ [] ∧
    live.active.hasDam 2 = true ∧ live.active.cascade.damCount ≤ 6 ∧ live.active.hasReach 2 = false ∧ live.linksOk ∧
    (let s := live.setReach 1 { queue := steps 32, cut := 1000 }
     let x := (s.reachAt 1).retire (s.active.reach 1).travel 1000
     s.active.hasReach 1 = true ∧ (s.reachAt 1).queue.length = 32 ∧ x.coarsened = false ∧
     ((s.outflowReport 1 60000).reachAt 1).coarsened = true ∧ s.pass.state ≠ .running ∧
     (making s .base).pass.state = .running ∧ (making s .base).pass.stage ≠ .routing ∧
     (making s .routing).pass.state = .running ∧ (making s .routing).pass.stage = .routing) := by
  and_intros <;> decide +kernel

/-- The stage in its turn and out of it; and pools and bins at the ends of their ranges, in bins that are not empty. -/
theorem witness_BaseForecast :
    live.atStage .base = false ∧ (making live .base).atStage .base = true ∧
    (making live .base).active.cascade.damCount ≤ 6 ∧ (making live .base).active.hasDam 2 = true ∧
    0 < (making live .base).pass.forecast.bin ∧ (∀ k ∈ [1, 2, 6], 1 ≤ k ∧ k ≤ 6) ∧ ∀ b ∈ [1, 12], 1 ≤ b ∧ b ≤ 12 := by
  and_intros <;> decide +kernel

/-- A pass about to sweep one claim on an available unit and one on a tripped unit. -/
def sweeping : State :=
  withChan (withClaims (making coordinating .sweep)
      [unitClaim, { unitClaim with handle := 65, dam := 2, kind := .turbine 2 }])
    2 fun x => { x with state := .tripped }

/-- R66: out of COORDINATE the sweep takes back what a claim would have. -/
theorem test_sweep_in_hold :
    (after .sweep (withClaims (making live .sweep) [{ unitClaim with workGrant := 900, workState := .granted }])).claims =
      [{ unitClaim with workGrant := 0, workState := .pending }] := by decide +kernel

theorem witness_Sweep :
    live.atStage .sweep = false ∧ (making live .sweep).atStage .sweep = true ∧ (making live .sweep).mode ≠ .coordinate ∧
    sweeping.atStage .sweep = true ∧ sweeping.mode = .coordinate ∧ sweeping.sweepReady ∧
    (let c := { unitClaim with withdrawn := .byOwner }
     let s := withClaims (making coordinating .sweep) [c]
     s.atStage .sweep = true ∧ s.mode = .coordinate ∧ s.claimsOk ∧ s.sweepReady ∧
     c.passedOver s.pass.forecast.start = true ∧ s.unitUnavailable c = false) ∧
    (let s := withClaims (making coordinating .sweep) [unitClaim]
     s.atStage .sweep = true ∧ s.mode = .coordinate ∧ s.claimsOk ∧
     unitClaim.passedOver s.pass.forecast.start = false ∧
     { unitClaim with withdrawn := .byOwner }.passedOver s.pass.forecast.start = true ∧
     s.unitUnavailable unitClaim = false) ∧
    (let c := { unitClaim with finish := some 1000 }
     let s := withChan (withClaims (making coordinating .sweep) [c]) 0 fun x => { x with state := .tripped }
     s.atStage .sweep = true ∧ s.mode = .coordinate ∧ s.claimsOk ∧ c.passedOver s.pass.forecast.start = true ∧
     s.unitUnavailable c = true ∧ (after .sweep s).claims.map (·.workState) = [.suspended]) := by
  and_intros <;> decide +kernel

/-- A claim swept on an available unit gets a positive grant, and one ranked behind it too. -/
theorem witness_Sweep_grants :
    let c := { unitClaim with handle := 65, urgency := 0, kind := .spill, requested := 100, grant := 100 }
    let u := withClaims (making coordinating .sweep) [c, unitClaim]
    let s := { u with pass := { u.pass with forecast := { u.pass.forecast with
      pools := gen1 fun k => { storage := Vector.replicate 12 (if k = 1 then 45000000 else 0) } } } }
    let t := after .sweep s
    s.atStage .sweep = true ∧ s.mode = .coordinate ∧ s.claimsOk ∧ 0 < s.pass.forecast.bin ∧
    ranked s.active.precedence s.claims = [unitClaim, c] ∧
    unitClaim.passedOver s.pass.forecast.start = false ∧ c.passedOver s.pass.forecast.start = false ∧
    t.claims.map (·.workGrant) = [100, 1200] := by
  and_intros <;> decide +kernel

theorem witness_RankOrder :
    (let c : Claim := { unitClaim with urgency := 0 }
     let d : Claim := { unitClaim with urgency := 3, group := .flood }
     c.urgency ≤ 3 ∧ d.urgency ≤ 3 ∧ ({} : PrecedenceRec).rank d < ({} : PrecedenceRec).rank c) ∧
    ({} : PrecedenceRec).rank { unitClaim with urgency := 3 } < ({} : PrecedenceRec).rank unitClaim := by
  and_intros <;> decide +kernel

theorem witness_AdmissionRespectsEveryBound :
    live.unitUnavailable unitClaim = false ∧ 1 ≤ unitClaim.minimum ∧ unitClaim.minimum ≤ unitClaim.requested ∧
    live.unitUnavailable { unitClaim with kind := .turbine 4 } = true ∧
    (let f : Forecast :=
      { start := 1000, bin := 600, pools := gen1 fun k => { storage := Vector.replicate 12 (if k = 1 then 45000000 else 0) } }
     let r := live.admitClaim unitClaim f 1000 (·.grant) 0
     0 < r.2 ∧ 0 < unitClaim.departureExposure f 1000 1 ∧ unitClaim.dam < live.damCount ∧
     unitClaim.arrivalExposure f 1000 7199 12 = 1 ∧ unitClaim.arrivalExposure f 1000 7200 12 = 0 ∧
     { unitClaim with start := 0 }.arrivalExposure f 1000 7200 12 = 0) := by
  and_intros <;> decide +kernel

theorem witness_ForcingOfOneDam :
    (let s := making live .forcing
     s.active.hasReach 1 = true ∧ s.active.hasReach 2 = false ∧
     (get1 s.pass.dams 1).forced ≤ s.requirement 1 ∧ s.requirement 1 ≤ s.forcedCap 1) ∧
    (let s := { making live .forcing with
      pools := put1 live.pools 1 { passBasis := some { storage := 60000000, time := 1000, bin := 600 } } }
     let u := { s with pass := { s.pass with dams := put1 s.pass.dams 1 { forced := 7000 } } }
     s.forcedCap 1 < s.requirement 1 ∧ min (u.requirement 1) (u.forcedCap 1) < 7000 ∧
     u.ceilingLimit 1 ≤ (u.passStorage 1 : Int)) := by
  and_intros <;> decide +kernel

theorem witness_RequirementIsTheLeast : 0 < (making live .forcing).pass.forecast.bin := by
  decide +kernel

theorem witness_Forcing :
    live.atStage .forcing = false ∧ (making live .forcing).atStage .forcing = true ∧
    (making live .forcing).active.cascade.damCount ≤ 6 ∧ (making live .forcing).linksOk := by
  and_intros <;> decide +kernel

/-- A pass about to publish: the unit of the claim given is TRIPPED and has a compensation entry, and the dam is to spill. -/
def publishing (c : Claim) : State :=
  let s := withChan (withClaims (making coordinating .publish) [c]) 0 fun x => { x with state := .tripped }
  let u := s.setPlan 1 { entries := [{ unit := 0, flow := 60000 }] }
  { u with pass := { u.pass with dams := put1 u.pass.dams 1 { forced := 60000 } } }

/-- The claim on unit 0 while the unit is down. -/
def heldClaim : Claim := { unitClaim with state := .suspended, grant := 0, held := some 1200 }

theorem witness_Publish :
    live.atStage .publish = false ∧
    (let s := withClaims (making coordinating .publish) [unitClaim]
     s.atStage .publish = true ∧ s.active.cascade.damCount ≤ 6 ∧ s.linksOk ∧ s.claimsOk ∧ s.plansOk ∧
     (∃ d ∈ (after .publish s).claims, d.handle = unitClaim.handle ∧ d.grant < unitClaim.grant) ∧
     isLink unitClaim.owner = true ∧ s.active.hasDam 3 = false) ∧
    (let c := { heldClaim with withdrawn := .byService }
     let s := publishing c
     s.atStage .publish = true ∧ s.active.cascade.damCount ≤ 6 ∧ s.linksOk ∧ s.claimsOk ∧ s.plansOk ∧
     c ∈ s.claims ∧ s.unitUnavailable c = true ∧ s.active.hasDam 1 = true ∧ (s.planAt 1).forced = 0 ∧
     ((after .publish s).planAt 1).forced ≠ 0) ∧
    (let c := { heldClaim with finish := some 1000, deadline := some 1000 }
     let s := publishing c
     s.atStage .publish = true ∧ s.linksOk ∧ s.claimsOk ∧ s.plansOk ∧ c ∈ s.claims ∧ c.withdrawn = .clear ∧
     c.endedAt s.clock = true ∧ c.deadline.isSome = true ∧ isLink c.owner = true) := by
  and_intros <;> decide +kernel

/-- A RELEASE of Link 4 on unit 0. -/
def someRelease : RawRelease :=
  { dam := 1, kind := 0, unit := 0, urgency := 3, flags := 0, requested := 60000, minimum := 0, offset := 86400
    duration := 0 }

/-- The same waiting in the intake queue. -/
def queued : IntakeEntry :=
  { link := 4, tag := 255, request := toClaimRequest someRelease (.turbine 0), arrival := 1000, cls := .dispatch, dam := 1 }

/-- The cascade with the claim table full. -/
def fullTable : State :=
  withClaims (making live .completion) ((List.range 64).map fun n => { unitClaim with handle := 64 + n })

theorem witness_PassCompletion :
    live.atStage .completion = false ∧ (making live .completion).atStage .completion = true ∧
    (making live .completion).leaving = [] ∧ (making live .completion).pass.again = false ∧
    (making live .completion).intake = [] ∧ (making live .completion).linksOk ∧
    (let s := { making live .completion with pass := { (making live .completion).pass with again := true } }
     s.atStage .completion = true ∧ s.leaving = [] ∧ s.pass.again = true ∧ ¬ s.poolAwaits ∧ (awaited s).poolAwaits) ∧
    { making live .completion with leaving := [1], intake := [queued] }.atStage .completion = true := by
  and_intros <;> decide +kernel

/-- A queued RELEASE: its class changed, its STATION dam changed, its dam or its unit gone, no free slot; and one that enters, with a
duration, without one, and with its link down. -/
theorem witness_PassCompletion_drain :
    (let s := making live .completion
     s.linkClass 4 ≠ { queued with cls := .flood }.cls ∧ (s.active.link 3).dam ≠ 2 ∧ s.linkClass 3 = .station ∧
     s.linkClass 4 = queued.cls ∧ queued.cls ≠ .station ∧ s.active.hasDam 3 = false ∧ s.active.hasDam 1 = true ∧
     (s.active.inDam 1 1 && (s.active.channel 1).kind == .turbine) = false ∧
     (s.active.inDam 1 0 && (s.active.channel 0).kind == .turbine) = true ∧
     s.claimsOk ∧ s.inFlight = true ∧ s.freeSlot = some 0 ∧ (s.linkAt 4).up = true ∧ s.mode ≠ .coordinate ∧
     queued.request.duration = none ∧ (withLink s 4 fun x => { x with up := false, timer := none }).claimsOk) ∧
    fullTable.freeSlot = none ∧ fullTable.active.hasDam 1 = true ∧
    (let s := making coordinating .completion
     s.claimsOk ∧ s.inFlight = true ∧ s.freeSlot = some 0 ∧ s.mode = .coordinate ∧ s.forecast.isSome = true) ∧
    (let s := withChan (making coordinating .completion) 0 fun x => { x with state := .tripped }
     s.claimsOk ∧ s.inFlight = true ∧ s.freeSlot = some 0 ∧
     (s.drainEntry queued).claims.map (fun d => (d.state, d.held)) = [(.suspended, some 0)]) := by
  and_intros <;> decide +kernel

/-- A waiting LEAVE_SERVICE: in another mode, with a working set that fails, and with one that passes. -/
theorem witness_PassCompletion_leave :
    (making live .completion).mode ≠ .service ∧
    (let s := { making inService .completion with working := emptySet }
     s.mode = .service ∧ s.working.validate = some (1, 0)) ∧
    (let s := making inService .completion
     s.mode = .service ∧ s.working.validate = none ∧ s.linksOk ∧ s.channelsOk ∧ s.inFlight = true) ∧
    (let s := withClaims (making inService .completion) [unitClaim]
     s.mode = .service ∧ s.working.validate = none ∧ s.linksOk ∧ s.channelsOk ∧ s.inFlight = true ∧
     s.setOk ∧ s.unitsOk ∧ s.claimsOk ∧ s.plansOk) := by
  simp only [unitsOk_iff]
  and_intros <;> decide +kernel

/-- The reply of a waiting request: none of its kind, the first of the buffer on an idle and on a busy transmitter, and one behind
another. -/
theorem witness_PassCompletion_reply :
    isLink 4 = true ∧ (live.linkAt 4).ok ∧ (live.linkAt 4).buffer = [] ∧
    (let x : Link := { upLink with buffer := [{ kind := 0x82, tag := 0 }] }
     x.ok ∧ x.buffer = [] ++ { kind := 0x82, tag := 0 } :: [] ∧ x.sending = none) ∧
    (let x : Link := { upLink with
      buffer := [{ kind := 0x82, tag := 0 }, { kind := 0x82, tag := 1 }], sending := some (.reply 0x81 2 (.status .ok)) }
     x.ok ∧ x.sending.isSome = true) ∧
    (let x : Link := { upLink with buffer := [{ kind := 0x91, tag := 0 }, { kind := 0x82, tag := 1 }] }
     x.ok ∧ x.buffer = [{ kind := 0x91, tag := 0 }] ++ { kind := 0x82, tag := 1 } :: []) := by
  and_intros <;> decide +kernel

theorem witness_ForecastAdjustments :
    live.forecast.isSome = true ∧ 1 ≤ unitClaim.dam ∧ unitClaim.dam ≤ live.damCount ∧ live.damCount ≤ 6 ∧
    max unitClaim.start 1000 < unitClaim.finish.getD (960 + 12 * 600) ∧ unitClaim.dam < live.damCount := by
  and_intros <;> decide +kernel

theorem witness_ReportWhileTracked :
    isChannel 0 = true ∧ (live.chan 0).inService = true ∧ live.linksOk ∧ (live.active.damOf 0).isSome = true ∧
    (live.chan 0).actual = (live.active.channel 0).flow 0 (live.chanHead 0) ∧
    (live.chan 0).actual ≠ (live.active.channel 0).flow 1000 (live.chanHead 0) := by
  and_intros <;> decide +kernel

/-- The cascade with channel 0 in bring-up. -/
def raising (wait : Bool) : State :=
  withChan live 0 fun _ => { state := .bringup, setpoint := some 0, waitMark := wait, bringupTimer := some 1030 }

theorem witness_ReportInBringup :
    isChannel 0 = true ∧ ((raising false).chan 0).state = .bringup ∧ (raising false).mode.running = true ∧
    (raising false).linksOk ∧ ((raising true).chan 0).waitMark = true ∧
    ((raising false).active.channel 0).manual = false ∧ ((raising false).chan 0).waitMark = false ∧
    ((raising true).active.damOf 0).isSome = true ∧
    ((raising true).chan 0).actual = ((raising true).active.channel 0).flow 0 ((raising true).chanHead 0) ∧
    ((raising true).chan 0).actual ≠ ((raising true).active.channel 0).flow 1000 ((raising true).chanHead 0) ∧
    (let s := withChan (raising false) 0 fun x => { x with holder := some 3, localOpening := some 0 }
     (s.chan 0).state = .bringup ∧ s.linksOk ∧ (s.chan 0).holder.isSome = true) := by
  and_intros <;> decide +kernel

/-- An automatic channel: its flow changes at the end of its range, with the pass that follows starting at once, waiting in flight
and deferred; and it stays at the other end. -/
theorem witness_ReportInBringup_flow :
    let s := raising false
    let changed := fun (u : State) (p : Int) => ((after (.positionReport 0 p) u).chan 0).actual ≠ (u.chan 0).actual
    s.setOk ∧ (s.active.damOf 0).isSome = true ∧ changed s 1020 ∧ ¬ changed s (-20) ∧ s.inFlight = false ∧
    (after (.positionReport 0 1020) s).pass.state = .running ∧
    (making s .sweep).inFlight = true ∧ changed (making s .sweep) 1020 ∧ ¬ changed (making s .sweep) (-20) ∧
    (let u := { s with gauges := Vector.replicate 7 {} }
     (after (.positionReport 0 1020) u).pass.state = .deferred ∧ changed u 1020) := by
  and_intros <;> decide +kernel

/-- The cascade with channel 0 in FAULT, and with it TRIPPED. -/
def faulted : State := withChan live 0 fun x => { x with
  state := .fault, faultKind := some .tracking, rampTimer := none, feedbackTimer := none }
def tripped : State := withChan live 0 fun x => { x with state := .tripped, feedbackTimer := none }

theorem witness_ReportInOtherStates :
    isChannel 31 = true ∧ (live.chan 31).state = .offline ∧ (faulted.chan 0).state = .fault ∧
    (tripped.chan 0).state = .tripped ∧ tripped.linksOk ∧ (tripped.chan 0).setpoint.isSome = true ∧
    (tripped.active.damOf 0).isSome = true ∧
    (tripped.chan 0).actual ≠ (tripped.active.channel 0).flow 1000 (tripped.chanHead 0) ∧
    (tripped.chan 0).actual = (tripped.active.channel 0).flow 0 (tripped.chanHead 0) := by
  and_intros <;> decide +kernel

theorem witness_FaultEntry :
    isChannel 0 = true ∧ live.mode.running = true ∧ live.linksOk ∧
    (let s := withChan live 0 fun x => { x with holder := some 3, localOpening := some 1000 }
     s.linksOk ∧ (s.chan 0).holder.isSome = true ∧ (s.active.damOf 0).isSome = true) ∧
    ({ live with clock := 1003 }.chan 0).inService = true ∧
    { live with clock := 1003 }.due (live.chan 0).feedbackTimer = true := by
  and_intros <;> decide +kernel

theorem witness_RampStep :
    isChannel 0 = true ∧ (live.chan 0).setpoint = some 0 ∧ live.due (live.chan 0).rampTimer = false ∧
    { live with clock := 1002 }.due (live.chan 0).rampTimer = true ∧ (live.chan 0).inService = true ∧
    (live.chan 0).target = some 0 ∧ (tripped.chan 0).state = .tripped ∧
    (let s := withChan { live with clock := 1002 } 0 fun x => { x with
        state := .moving, target := some 1, holder := some 3, localOpening := some 1 }
     s.due (s.chan 0).rampTimer = true ∧ (s.chan 0).inService = true ∧ (s.chan 0).setpoint = some 0 ∧
     ((after (.rampStep 0) s).chan 0).state = .ready) := by
  and_intros <;> decide +kernel

theorem witness_OpeningForAFlow :
    unitC5.ok = true ∧ 1 ≤ 6000 ∧ 6000 ≤ unitC5.capacity 0 ∧ unitC5.capacity 0 < 6001 := by
  and_intros <;> decide +kernel

theorem witness_SpillDistributionPlacesItAll :
    3 ≤ sumOver [(5, 1), (6, 2)] (·.2) ∧ sumOver [(5, 1), (6, 2)] (·.2) < 4 := by
  and_intros <;> decide +kernel

theorem witness_RecomputeSetsTheTargets :
    isChannel 0 = true ∧ live.active.inDam 1 0 = true ∧ live.active.inDam 1 2 = false ∧
    (live.chan 0).inService = true ∧ (live.chan 0).holder = none ∧ (live.active.channel 0).kind = .turbine ∧
    (live.active.channel 1).kind = .spill ∧ (live.spillShares 1).2 = false ∧
    ((live.setPlan 1 { forced := 60000 }).spillShares 1).2 = true ∧ live.active.hasDam 1 = true ∧
    (faulted.chan 0).state = .fault ∧ (tripped.chan 0).state = .tripped ∧
    (let s := withChan faulted 0 fun x => { x with holder := some 3, localOpening := some 1000 }
     s.active.inDam 1 0 = true ∧ (s.chan 0).state = .fault ∧ (s.chan 0).holder = some 3 ∧
     (s.chan 0).localOpening = some 1000) ∧
    (let s := withChan live 0 fun x => { x with holder := some 3, localOpening := some 1000 }
     (s.chan 0).inService = true ∧ (s.chan 0).holder = some 3 ∧ (s.chan 0).localOpening = some 1000) := by
  and_intros <;> decide +kernel

/-- The cascade with unit 0 running on a claim of q FU, its dam compensating or not. -/
def running (q : Nat) (yes : Bool) : State :=
  withChan (withClaims { live with active := { twoDams with dams := put1 twoDams.dams 1 { channelCount := 2, compensate := yes } } }
    [{ unitClaim with requested := q, grant := q }]) 0 fun x => { x with actual := q }

theorem witness_TripInputs_compensation :
    (let s := running 6000 true
     isChannel 0 = true ∧ s.mode.running = true ∧ s.linksOk ∧ s.tripLine 0 = false ∧
     (s.active.damOf 0).isSome = true ∧ (s.active.channel 0).kind = .turbine ∧ (s.chan 0).state = .ready ∧
     s.active.cascade.damCount ≤ 6 ∧ (s.active.dam 1).compensate = true ∧ s.forecast.isSome = true ∧
     ((after (.tripAssertion 0) s).planAt 1).entries = [{ unit := 0, flow := 6000 }]) ∧
    (let s := running 6001 true
     s.linksOk ∧ (s.active.dam 1).compensate = true ∧
     ((after (.tripAssertion 0) s).planAt 1).entries = [{ unit := 0, flow := 6000 }]) ∧
    ((running 6000 false).active.dam 1).compensate = false ∧ (running 6000 false).linksOk ∧
    { live with forecast := none }.linksOk := by
  and_intros <;> decide +kernel

theorem witness_TripInputs :
    isChannel 0 = true ∧ live.mode.running = true ∧ live.linksOk ∧ live.tripLine 0 = false ∧
    (live.active.damOf 0).isSome = true ∧ (live.active.channel 0).kind = .turbine ∧
    (live.chan 0).state ≠ .offline ∧ (live.chan 0).state ≠ .tripped ∧
    (live.setTripLine 0 true).tripLine 0 = true ∧ (live.active.channel 1).kind = .spill ∧ live.tripLine 1 = false ∧
    (live.active.damOf 4).isSome = false ∧ live.setOk := by
  and_intros <;> decide +kernel

theorem witness_ClaimStartAndEnd :
    isSlot 0 = true ∧ (withClaims live []).claimsOk ∧ (withClaims live []).claimAt 0 = none ∧
    (let c := { unitClaim with finish := some 1000, deadline := some 1000 }
     let s := withClaims live [c]
     s.claimsOk ∧ s.linksOk ∧ s.claimAt 0 = some c ∧ 1 ≤ c.dam ∧ c.dam ≤ 6 ∧ c.endedAt s.clock = true ∧
     c.reached = false ∧ s.inFlight = false ∧ (making s .sweep).inFlight = true ∧ c.held = none) ∧
    (let c := { unitClaim with state := .suspended, grant := 0, held := some 1200, finish := some 1000 }
     let s := withClaims live [c]
     s.claimsOk ∧ s.linksOk ∧ s.claimAt 0 = some c ∧ 1 ≤ c.dam ∧ c.dam ≤ 6 ∧ c.endedAt s.clock = true ∧
     c.reached = false ∧ s.inFlight = false ∧ c.held.isSome = true ∧ c.kind = .turbine 0 ∧ s.forecast.isSome = true) := by
  and_intros <;> decide +kernel

/-- The targets follow the end of a claim with a grant, and one that lowers a compensation sum. -/
theorem witness_ClaimStartAndEnd_targets :
    (let c := { unitClaim with finish := some 1000 }
     let s := withClaims live [c]
     s.claimsOk ∧ s.linksOk ∧ s.claimAt 0 = some c ∧ c.endedAt s.clock = true ∧ c.reached = false ∧
     s.inFlight = false ∧ c.grant ≠ 0) ∧
    (let c := { heldClaim with finish := some 1000 }
     let s := (withClaims live [c]).setPlan 1 { entries := [{ unit := 0, flow := 1200 }] }
     s.claimsOk ∧ s.linksOk ∧ s.claimAt 0 = some c ∧ c.endedAt s.clock = true ∧ s.inFlight = false ∧
     sumOver ((after (.claimEndReached 0) s).planAt 1).entries (·.flow) ≠ sumOver (s.planAt 1).entries (·.flow)) := by
  and_intros <;> decide +kernel

theorem witness_ReleaseRefusedOrQueued :
    (Instr.release 4 255 someRelease).wf = true ∧
    someRelease.kind ≤ 1 ∧ { someRelease with kind := 1 }.kind ≤ 1 ∧
    (making live .sweep).admits 4 (.release someRelease) ∧
    (making live .sweep).checkRelease 4 someRelease = .ok (toClaimRequest someRelease (.turbine 0)) ∧
    (making live .sweep).inFlight = true ∧
    live.admits 4 (.release { someRelease with urgency := 4 }) ∧
    live.checkRelease 4 { someRelease with urgency := 4 } = .error .badValue := by
  refine ⟨by decide +kernel, by decide, by decide, by decide +kernel, rfl, by decide +kernel, by decide +kernel, rfl⟩

/-- A RELEASE of Link 4 on unit 0 that starts at once. -/
def nearRelease : RawRelease := { someRelease with offset := 0 }

/-- In COORDINATE it is CLAMPED with a positive grant beside the grant of a claim that ranks lower. -/
theorem witness_ReleaseEntersTheTable_early :
    let s := withClaims coordinating [unitClaim]
    (Instr.release 4 255 nearRelease).wf = true ∧ s.admits 4 (.release nearRelease) ∧ s.claimsOk ∧ s.linksOk ∧
    s.checkRelease 4 nearRelease = .ok (toClaimRequest nearRelease (.turbine 0)) ∧ s.inFlight = false ∧
    s.forecast.isSome = true ∧ s.mode = .coordinate ∧ s.freeSlot = some 1 ∧ s.clock < 960 + 12 * 600 ∧
    (let d := ((after (.release 4 255 nearRelease) s).claims.getD 1 unitClaim)
     d.state = .clamped ∧ 0 < d.grant ∧ s.setOk ∧ unitClaim.grant ≠ 0 ∧
     s.active.precedence.rank d < s.active.precedence.rank unitClaim) := by
  refine ⟨by decide +kernel, by decide +kernel, by decide +kernel, by decide +kernel, rfl, ?_⟩
  and_intros <;> decide +kernel

theorem witness_ReleaseEntersTheTable :
    (Instr.release 4 255 someRelease).wf = true ∧ live.admits 4 (.release someRelease) ∧ live.claimsOk ∧ live.linksOk ∧
    live.checkRelease 4 someRelease = .ok (toClaimRequest someRelease (.turbine 0)) ∧ live.inFlight = false ∧
    live.forecast.isSome = true ∧ live.freeSlot = some 0 ∧
    coordinating.admits 4 (.release someRelease) ∧ coordinating.mode = .coordinate ∧
    coordinating.clock < 960 + 12 * 600 := by
  refine ⟨by decide +kernel, by decide +kernel, by decide +kernel, by decide +kernel, rfl, by decide +kernel, rfl, rfl,
    by decide +kernel, rfl, by decide +kernel⟩

/-- One on a unit that is TRIPPED enters SUSPENDED. -/
theorem witness_ReleaseEntersTheTable_suspended :
    let s := withChan live 0 fun x => { x with state := .tripped }
    s.admits 4 (.release someRelease) ∧ s.claimsOk ∧ s.linksOk ∧ s.freeSlot = some 0 ∧
    (after (.release 4 255 someRelease) s).claims.map (fun d => (d.state, d.held)) = [(.suspended, some 0)] := by
  and_intros <;> decide +kernel

theorem witness_Withdraw :
    (let s := withClaims live [unitClaim]
     (Instr.withdraw 3 0 64).wf = true ∧ s.admits 3 (.withdraw 64) ∧ s.claimsOk ∧ s.linksOk ∧ unitClaim ∈ s.claims ∧
     unitClaim.owner = 3 ∧ s.inFlight = false ∧ (making s .sweep).admits 3 (.withdraw 64) ∧
     (making s .sweep).inFlight = true ∧ s.admits 4 (.withdraw 64) ∧ s.linkClass 4 ≠ .service ∧
     s.admits 1 (.withdraw 64) ∧ s.linkClass 1 = .service ∧ ∀ c ∈ s.claims, c.handle ≠ 65535) ∧
    (let s := withClaims live [heldClaim]
     s.admits 3 (.withdraw 64) ∧ s.claimsOk ∧ s.linksOk ∧ heldClaim ∈ s.claims ∧ heldClaim.handle = 64 ∧
     heldClaim.owner = 3 ∧ s.inFlight = false ∧ 1 ≤ heldClaim.dam ∧ heldClaim.dam ≤ 6 ∧ heldClaim.kind = .turbine 0 ∧
     heldClaim.held.isSome = true ∧ s.forecast.isSome = true) ∧
    (let s := (withClaims live [heldClaim]).setPlan 1 { entries := [{ unit := 0, flow := 1200 }] }
     s.admits 3 (.withdraw 64) ∧ s.claimsOk ∧ s.linksOk ∧ s.inFlight = false ∧
     sumOver ((after (.withdraw 3 0 64) s).planAt 1).entries (·.flow) ≠ sumOver (s.planAt 1).entries (·.flow)) ∧
    unitClaim.grant ≠ 0 ∧
    (let c := { unitClaim with kind := .spill }
     let s := withClaims live [c]
     s.admits 3 (.withdraw 64) ∧ s.claimsOk ∧ s.linksOk ∧ c ∈ s.claims ∧ c.owner = 3 ∧ s.inFlight = false ∧
     c.kind = .spill) := by
  and_intros <;> decide +kernel

theorem witness_DeclareInflow :
    (Instr.declareInflow 2 0 2 [65535]).wf = true ∧ live.admits 2 (.declareInflow 2 [65535]) ∧ live.linksOk ∧
    live.active.cascade.damCount ≤ 6 ∧ live.inFlight = false ∧ live.awaiting = false ∧ ¬ live.poolAwaits ∧
    (making live .sweep).admits 2 (.declareInflow 2 [65535]) ∧ (making live .sweep).inFlight = true ∧
    { live with gauges := Vector.replicate 7 {} }.awaiting = true := by
  and_intros <;> decide +kernel

theorem witness_GrantsChangeOnlyAtTheirPoints :
    (let s := withClaims live [unitClaim]
     exec (.ping 1 0) s = .next (after (.ping 1 0) s) ∧ unitClaim ∈ (after (.ping 1 0) s).claims) ∧
    (∀ u, Instr.ping 1 0 ≠ .tripAssertion u) ∧ Instr.ping 1 0 ≠ .publish ∧ Instr.ping 1 0 ≠ .passCompletion ∧
    Instr.ping 1 0 ≠ .loadComplete ∧ (∀ l tag b, Instr.ping 1 0 ≠ .release l tag b) ∧
    (∀ l tag, Instr.ping 1 0 ≠ .leaveService l tag) ∧ (∀ l bytes, Instr.ping 1 0 ≠ .frameDiscarded l bytes) := by
  refine ⟨⟨rfl, by decide +kernel⟩, by simp, by simp, by simp, by simp, by simp, by simp, by simp⟩

/-- The part in HOLD: without grants; with a grant that the sweep to come, or the again flag, is to take; and with one that the
publish, which no other pass is to follow, takes. -/
theorem witness_GrantsChangeOnlyAtTheirPoints_mode :
    live.mode ≠ .coordinate ∧ live.grantless ∧ live.grantsByMode ∧ step live = .next live.tick ∧
    (let s := withClaims (making live .sweep) [unitClaim]
     s.mode ≠ .coordinate ∧ s.clearing ∧ ¬ s.grantless ∧ s.grantsByMode ∧ step s = .next s.tick) ∧
    (let s := withClaims (making live .publish) [{ unitClaim with workGrant := 700 }]
     let u := { s with pass := { s.pass with again := true } }
     ¬ s.grantsByMode ∧ u.clearing ∧ u.grantsByMode ∧ step u = .next u.tick) ∧
    (let s := withClaims (making live .publish) [unitClaim]
     s.atStage .publish = true ∧ s.mode ≠ .coordinate ∧ s.pass.again = false ∧ s.grantsByMode ∧ ¬ s.grantless ∧
     (after .publish s).grantless) := by
  refine ⟨by decide +kernel, by decide +kernel, by decide +kernel, rfl, ?_, ?_, by decide +kernel⟩
  · exact ⟨by decide +kernel, by decide +kernel, by decide +kernel, by decide +kernel, rfl⟩
  · exact ⟨by decide +kernel, by decide +kernel, by decide +kernel, rfl⟩

theorem witness_ChannelsStaySound : live.openingsOk ∧ live.channelsOk ∧ step live = .next live.tick := by
  refine ⟨by decide +kernel, by decide +kernel, rfl⟩

theorem witness_ClaimTableStaysWellFormed :
    let s := withClaims live [unitClaim]
    s.claimsOk ∧ s.quietOk ∧ s.setOk ∧ s.unitsOk ∧ step s = .next s.tick := by
  simp only [unitsOk_iff]
  exact ⟨by decide +kernel, by decide +kernel, by decide +kernel, by decide +kernel, rfl⟩

/-- A pass whose next stage is the sweep, and one whose next stage is the one that readies it. -/
theorem witness_ClaimTableStaysWellFormed_sweep :
    (let s := withClaims (making live .sweep) [unitClaim]
     s.atStage .sweep = true ∧ s.sweepReady ∧ step s = .next s.tick) ∧
    (let s := withClaims (making live .base) [{ unitClaim with workGrant := 900, workState := .granted }]
     s.sweepReady ∧ (after .baseForecast s).atStage .sweep = true ∧ (after .baseForecast s).sweepReady) := by
  exact ⟨⟨by decide +kernel, by decide +kernel, rfl⟩, by decide +kernel⟩

theorem witness_PlansCaptureAndStoreStaySound :
    live.plansOk ∧ live.captureOk ∧ live.storeOk ∧ step live = .next live.tick := by
  refine ⟨by decide +kernel, by decide +kernel, by decide +kernel, rfl⟩

theorem witness_StepQueuesStayOrdered : live.reachesOk ∧ step live = .next live.tick := ⟨by decide +kernel, rfl⟩

theorem witness_LinksStayServed : live.linksOk ∧ step live = .next live.tick := ⟨by decide +kernel, rfl⟩

theorem witness_QuietWhileNotRunning :
    State.reset.quietOk ∧ State.reset.mode.running = false ∧ step State.reset = .next State.reset.tick :=
  ⟨fun _ => by decide +kernel, rfl, rfl⟩

theorem witness_PingAndRestart :
    isRequest 1 255 = true ∧ live.takes 1 ∧ (live.linkAt 1).ok ∧ live.linkClass 1 = .service := by
  and_intros <;> decide +kernel

/-- The cascade with four requests buffered on Link 1. -/
def crowded : State := withLink live 1 fun x => { x with
  buffer := List.replicate 4 { kind := 0x82, tag := 0 } }

theorem witness_RequestsTurnedAway :
    (Instr.resume 3 0).wf = true ∧ requestOfCommand (.resume 3 0) = some (3, 0, .resume) ∧ live.takes 3 ∧
    (live.linkAt 3).ok ∧ live.refusal 3 .resume = some .notPermitted ∧ (Instr.unknownKind 3 0 255).wf = true ∧
    (Instr.ping 1 0).wf = true ∧ requestOfCommand (.ping 1 0) = some (1, 0, .ping) ∧ (crowded.linkAt 1).up = true ∧
    (crowded.linkAt 1).buffer.length = 4 ∧ (crowded.linkAt 1).ok := by
  and_intros <;> decide +kernel

/-- The cascade with Link 3 down, one of its claims given an abandon deadline and channel 0 held by it. -/
def linkDown : State :=
  withChan (withLink (withClaims live [{ unitClaim with finish := some 1000, deadline := some 1000 }]) 3
      fun x => { x with up := false, timer := none, latched := 2048#12 })
    0 fun x => { x with holder := some 3, localOpening := some 0, orphan := true }

theorem witness_WhatPassesTheChecks :
    live.refusal 3 (.takeLocal 1) = none ∧ live.refusal 3 (.takeLocal 2) = some .badIndex ∧
    live.mapChannel 3 1 = some 1 ∧ live.refusal 4 (.takeLocal 0) = some .notPermitted ∧
    live.refusal 1 (.setMask 4095) = none ∧ live.refusal 1 (.setMask 4096) = some .badValue ∧
    live.refusal 1 .hold = some .wrongMode ∧ live.refusal 1 (.unknown 0) = some .badValue ∧
    (∀ code, Request.hold ≠ .unknown code) := by
  refine ⟨?_, ?_, ?_, ?_, ?_, ?_, ?_, ?_, by simp⟩ <;> decide +kernel

theorem witness_FrameOnADownLink :
    (Instr.ping 3 0).wf = true ∧ requestOfCommand (.ping 3 0) = some (3, 0, .ping) ∧ (linkDown.linkAt 3).up = false ∧
    (linkDown.linkAt 3).ok ∧ linkDown.claimsOk ∧
    (linkDown.linkAt 3).latched &&& ~~~(linkDown.linkAt 3).mask ≠ 0#12 ∧ linkDown.forecast.isSome = true ∧
    { linkDown with forecast := none }.claimsOk := by
  and_intros <;> decide +kernel

theorem witness_CharactersOfALine :
    isLink 1 = true ∧ (live.linkAt 1).rx = [] ∧ (0x5A : Byte) ∉ ([1, 2] : List Byte) ∧
    2 ≤ (2 : Byte).toNat ∧ ([] : List Byte).length < (2 : Byte).toNat + 2 ∧
    (let body : List Byte := [1, 7]
     let crc : List Byte := [0, 0]
     body.length = (2 : Byte).toNat ∧ crc.length = 2 ∧ (0x5A : Byte) ∉ 2 :: (body ++ crc) ∧
     bigEndian crc ≠ (crc16 (2 :: body)).toNat) ∧
    (Instr.ping 1 7).wf = true ∧ requestOfCommand (.ping 1 7) = some (1, 7, .ping) ∧ requestOf 1 [] = some .ping := by
  and_intros <;> decide +kernel

theorem witness_LinkTimerExpiry :
    isLink 3 = true ∧ live.linksOk ∧ live.claimsOk ∧ live.plansOk ∧ live.due (live.linkAt 3).timer = false ∧
    (let s := withChan (withClaims { live with clock := 1010 } [unitClaim]) 0
      fun x => { x with holder := some 3, localOpening := some 0 }
     s.due (s.linkAt 3).timer = true ∧ s.linksOk ∧ s.claimsOk ∧ s.plansOk ∧ s.unitsOk ∧ 0 < (s.active.link 3).abandon ∧
     0 ∈ channelNumbers ∧ (s.chan 0).holder = some 3 ∧ s.forecast.isSome = true) ∧
    (let s := (withClaims { live with
        clock := 1010, active := { twoDams with links := put1 twoDams.links 3 { cls := .station, dam := 1, abandon := 0 } } }
      [heldClaim]).setPlan 1 { entries := [{ unit := 0, flow := 1 }] }
     s.due (s.linkAt 3).timer = true ∧ s.linksOk ∧ s.claimsOk ∧ s.plansOk ∧ s.unitsOk ∧ (s.active.link 3).abandon = 0 ∧
     s.inFlight = false ∧ heldClaim ∈ s.claims ∧ heldClaim.owner = 3 ∧ heldClaim.finish = none ∧
     (making s .sweep).inFlight = true ∧ (making s .sweep).plansOk ∧ (making s .sweep).unitsOk) ∧
    (let s := withClaims { live with
        clock := 1010, active := { twoDams with links := put1 twoDams.links 3 { cls := .station, dam := 1, abandon := 0 } } }
      [unitClaim]
     s.due (s.linkAt 3).timer = true ∧ s.linksOk ∧ s.claimsOk ∧ s.plansOk ∧ s.unitsOk ∧ s.setOk ∧
     (s.active.link 3).abandon = 0 ∧ unitClaim.finish = none ∧ unitClaim.owner = 3 ∧ unitClaim.grant ≠ 0) := by
  simp only [unitsOk_iff]
  and_intros <;> decide +kernel

/-- Link 1 with a formed READ_CONDITIONS reply behind a frame being sent. -/
def sending : State := withLink live 1 fun x => { x with
  buffer := [{ kind := 0x8C, tag := 1, reply := some (.status .ok) }], sending := some (.reply 0x81 0 (.status .ok))
  waiting := [.first], statusPending := true }

theorem witness_LineBreakAndFrameSent :
    isLink 1 = true ∧ (live.linkAt 1).ok ∧ (sending.linkAt 1).ok ∧ (live.linkAt 1).sending = none ∧
    (sending.linkAt 1).sending.isSome = true ∧ (sending.linkAt 1).waiting = .first :: [] ∧
    (sending.linkAt 1).buffer.any (fun e => e.kind == 0x8C && e.reply.isSome) = true ∧
    (let s := withLink live 1 fun x => { x with
      sending := some (.reply 0x81 0 (.status .ok)), waiting := [.status, .busy 0x81 2], statusPending := true }
     (s.linkAt 1).ok ∧ (s.linkAt 1).sending.isSome = true ∧ (s.linkAt 1).waiting = .status :: [.busy 0x81 2]) ∧
    (let s := withLink live 1 fun x => { x with
      sending := some (.reply 0x81 0 (.status .ok)), waiting := [.busy 0x81 2] }
     (s.linkAt 1).ok ∧ (s.linkAt 1).sending.isSome = true ∧ (s.linkAt 1).waiting = .busy 0x81 2 :: []) := by
  and_intros <;> decide +kernel

theorem witness_ConditionRequests :
    isRequest 1 0 = true ∧ live.takes 1 ∧ (live.linkAt 1).ok ∧ 4095 < 4096 ∧ live.mode.running = true ∧
    (let s := withLink live 1 fun x => { x with latched := 1#12, mask := 1#12 }
     s.takes 1 ∧ (s.linkAt 1).ok ∧ (s.linkAt 1).statusPending = false ∧
     (s.linkAt 1).latched &&& ~~~(BitVec.ofNat 12 0) ≠ 0#12) := by
  and_intros <;> decide +kernel

theorem witness_Queries :
    isRequest 1 0 = true ∧ fits1 1 = true ∧ live.admits 1 (.query 1 63) ∧ live.admits 1 (.query 2 2) ∧
    live.admits 1 (.query 3 1) ∧ live.admits 1 (.query 4 3) ∧ live.admits 1 (.query 5 1) ∧ live.admits 1 (.query 6 4) ∧
    live.admits 1 (.query 7 0) ∧ live.admits 1 (.query 8 0) := by
  and_intros <;> decide +kernel

/-- The cascade with channel 0 held by Link 3. -/
def held (s : State) : State := withChan s 0 fun x => { x with holder := some 3, localOpening := some 0 }

/-- The cascade with channel 0 held by a STATION link that is not Link 3. -/
def heldByOther : State :=
  withChan { live with active := { twoDams with links := put1 twoDams.links 4 { cls := .station, dam := 1 } } } 0
    fun x => { x with holder := some 4, localOpening := some 0 }

theorem witness_TakeLocal :
    (Instr.takeLocal 3 0 0).wf = true ∧ live.admits 3 (.takeLocal 0) ∧ live.linksOk ∧ live.channelsOk ∧ live.setOk ∧
    (live.chan (live.channelOf 3 0)).holder = none ∧ (live.chan (live.channelOf 3 0)).inService = true ∧
    (live.chan (live.channelOf 3 0)).setpoint.isSome = true ∧
    (held live).admits 3 (.takeLocal 0) ∧ (held live).channelsOk ∧ ((held live).chan 0).holder = some 3 ∧
    tripped.admits 3 (.takeLocal 0) ∧ tripped.channelsOk ∧ faulted.admits 3 (.takeLocal 0) ∧ faulted.channelsOk ∧
    (faulted.chan 0).state = .fault ∧ (faulted.chan 0).holder = none ∧
    heldByOther.admits 3 (.takeLocal 0) ∧ heldByOther.channelsOk ∧ (heldByOther.chan 0).holder = some 4 := by
  and_intros <;> decide +kernel

/-- A channel in FAULT that never had a setpoint, and one that had. -/
theorem witness_TakeLocal_fault :
    let s := withChan live 0 fun _ => { state := .fault, faultKind := some .bringupTimeout }
    s.admits 3 (.takeLocal 0) ∧ s.linksOk ∧ s.channelsOk ∧ (s.chan 0).state = .fault ∧ (s.chan 0).holder = none ∧
    (s.chan 0).setpoint = none ∧ (faulted.chan 0).setpoint.isSome = true := by
  and_intros <;> decide +kernel

theorem witness_SetOpening :
    (Instr.setOpening 3 0 0 65535).wf = true ∧ (held live).admits 3 (.setOpening 0 65535) ∧ (held live).channelsOk ∧
    ((held live).chan ((held live).channelOf 3 0)).holder = some 3 ∧ ((held live).chan 0).state ≠ .bringup ∧
    live.admits 3 (.setOpening 0 65535) ∧ (live.chan 0).holder = none ∧
    (held (raising false)).admits 3 (.setOpening 0 0) ∧ (held (raising false)).channelsOk ∧
    ((held (raising false)).chan 0).state = .bringup ∧ heldByOther.admits 3 (.setOpening 0 0) := by
  and_intros <;> decide +kernel

theorem witness_ReleaseLocal :
    (Instr.releaseLocal 3 0 0).wf = true ∧ (held live).admits 3 (.releaseLocal 0) ∧ (held live).linksOk ∧
    (held live).setOk ∧ ((held live).chan 0).inService = true ∧
    ((held live).chan ((held live).channelOf 3 0)).holder = some 3 ∧ (held live).admits 1 (.releaseLocal 0) ∧
    (held live).linkClass 1 = .service ∧ live.admits 3 (.releaseLocal 0) ∧ (live.chan 0).holder = none ∧
    heldByOther.admits 3 (.releaseLocal 0) ∧ heldByOther.linkClass 3 ≠ .service := by
  and_intros <;> decide +kernel

/-- R140, R144: a spill gate that is released takes the whole share of its dam: 5,000 lies 100 over the 4,900 of opening 875 in steps of
1,100 to the 125 per-mille. -/
theorem test_release_takes_share :
    let s := withChan live 1 fun x => { x with holder := some 3, localOpening := some 0 }
    let u := (s.setPlan 1 { entries := [{ unit := 0, flow := 5000 }] }).recompute 1
    let t := after (.releaseLocal 3 0 1) u
    (u.chan 1).target = some 0 ∧ (t.chan 1).target = some 887 ∧ (t.chan 1).state = .moving ∧ t.aimed 1 := by
  decide +kernel

theorem witness_BringUpRequests :
    isRequest 1 0 = true ∧ fits1 0 = true ∧ faulted.linksOk ∧ faulted.admits 1 (.clearFault 0) ∧
    (faulted.chan (faulted.channelOf 1 0)).state = .fault ∧ tripped.admits 1 (.resetTrip 0) ∧ tripped.linksOk ∧
    (tripped.chan (tripped.channelOf 1 0)).state = .tripped ∧ tripped.tripLine 0 = false ∧
    (Instr.bringUp 1 0 0).wf = true ∧ (raising true).admits 1 (.bringUp 0) ∧ (raising true).linksOk ∧
    (raising true).channelsOk ∧ ((raising true).chan ((raising true).channelOf 1 0)).state = .bringup ∧
    ((raising true).chan 0).waitMark = true ∧ (held faulted).admits 1 (.clearFault 0) ∧ (held faulted).linksOk ∧
    ((held faulted).chan 0).state = .fault ∧ ((held faulted).chan 0).holder.isSome = true := by
  and_intros <;> decide +kernel

/-- A part in CONFIG_FAULT whose working set is the small cascade. -/
def rejected : State := { State.reset with
  mode := .configFault, working := twoDams, links := Vector.replicate 4 upLink }

theorem witness_LeaveService :
    isRequest 1 0 = true ∧ inService.admits 1 .leaveService ∧ inService.linksOk ∧ inService.quietOk ∧
    inService.channelsOk ∧ inService.working.validate = none ∧ inService.inFlight = false ∧
    (making inService .sweep).admits 1 .leaveService ∧ (making inService .sweep).inFlight = true ∧
    { inService with working := emptySet }.admits 1 .leaveService ∧
    { inService with working := emptySet }.working.validate = some (1, 0) ∧
    rejected.admits 1 .leaveService ∧ rejected.linksOk ∧ rejected.channelsOk ∧ rejected.quiet ∧
    rejected.mode = .configFault ∧ rejected.working.validate = none := by
  refine ⟨by decide +kernel, by decide +kernel, by decide +kernel, fun h => absurd h (by decide +kernel), ?_⟩
  and_intros <;> decide +kernel

/-- From SERVICE with no pass in flight: the pass that follows starts at once, or is deferred where a gauge of a pool waits. -/
theorem witness_LeaveService_idle :
    let s := withClaims inService [unitClaim]
    let u := { s with gauges := Vector.replicate 7 {} }
    s.admits 1 .leaveService ∧ s.linksOk ∧ s.channelsOk ∧ s.working.validate = none ∧ s.mode = .service ∧
    s.inFlight = false ∧ s.setOk ∧ s.unitsOk ∧ s.claimsOk ∧ s.plansOk ∧
    (after (.leaveService 1 0) s).pass.state = .running ∧
    u.admits 1 .leaveService ∧ u.linksOk ∧ u.channelsOk ∧ u.inFlight = false ∧ u.setOk ∧ u.unitsOk ∧ u.claimsOk ∧
    u.plansOk ∧ (after (.leaveService 1 0) u).pass.state = .deferred := by
  simp only [unitsOk_iff]
  and_intros <;> decide +kernel

/-- What an activation makes of channels: one that stays with a hold, one whose hold ends, one that changes its kind and one whose trip
input is asserted. -/
theorem witness_LeaveService_channels :
    let s := withChan (held inService) 2 fun x => { x with holder := some 3, localOpening := some 0 }
    let kinds := put0 (put0 twoDams.channels 1 unitC5) 3 unitC5
    let u := { s with working := { twoDams with channels := kinds } }.setTripLine 3 true
    let t := after (.leaveService 1 0) u
    u.admits 1 .leaveService ∧ u.linksOk ∧ u.channelsOk ∧ u.working.validate = none ∧ u.inFlight = false ∧ u.setOk ∧
    u.unitsOk ∧ u.claimsOk ∧ u.plansOk ∧ (u.active.channel 1).kind ≠ (u.working.channel 1).kind ∧
    (t.chan 0).holder = some 3 ∧ (t.chan 2).holder = none ∧ (t.chan 1).state = .bringup ∧ (t.chan 3).state = .tripped ∧
    (let v := rejected.setTripLine 0 true
     v.admits 1 .leaveService ∧ v.linksOk ∧ v.channelsOk ∧ v.quiet ∧ v.tripLine 0 = true ∧
     ((after (.leaveService 1 0) v).chan 0).state = .tripped) := by
  simp only [unitsOk_iff]
  and_intros <;> decide +kernel

end Sys2Proof.Tests
end

section
/-! What a change of a forecast in place leaves of F and P (R60), in the words of the statements: releaseOnF, releaseOnP and
removalOnP. -/

namespace Sys2Proof.Machine

theorem mem_sixNumbers {j : Nat} : j ∈ sixNumbers ↔ 1 ≤ j ∧ j ≤ 6 := by
  simp only [sixNumbers, List.mem_cons, List.not_mem_nil, or_false]
  omega

theorem mem_binNumbers {b : Nat} : b ∈ binNumbers ↔ 1 ≤ b ∧ b ≤ 12 := by
  simp only [binNumbers, List.mem_cons, List.not_mem_nil, or_false]
  omega

/-! ### Reading a changed forecast -/

theorem get1_outside {n : Nat} {α : Type} [Inhabited α] (t : Tab n α) {j : Nat} (h : ¬ (1 ≤ j ∧ j ≤ n)) :
    get1 t j = default := by
  cases j with
  | zero => rfl
  | succ i => exact get0_ge t (by omega)

theorem pool_outside (f : Forecast) {j : Nat} (h : j ∉ sixNumbers) : f.pool j = default :=
  get1_outside f.pools (mt mem_sixNumbers.2 h)

theorem change_pool (f : Forecast) (dF dP : Nat → Nat → Int) {j : Nat} (h : 1 ≤ j) (h' : j ≤ 6) :
    (f.change dF dP).pool j =
      { storage := gen1 fun b => (f.pool j).F b + dF j b, peak := gen1 fun b => (f.pool j).P b + dP j b } :=
  get1_gen1_in _ h h'

theorem change_changedBy (f : Forecast) (dF dP : Nat → Nat → Int) : f.changedBy (f.change dF dP) dF dP := by
  refine ⟨rfl, rfl, fun j hj b hb => ?_⟩
  obtain ⟨hj1, hj6⟩ := mem_sixNumbers.1 hj
  obtain ⟨hb1, hb12⟩ := mem_binNumbers.1 hb
  rw [change_pool f dF dP hj1 hj6]
  exact ⟨get1_gen1_in (fun b => (f.pool j).F b + dF j b) hb1 hb12,
    get1_gen1_in (fun b => (f.pool j).P b + dP j b) hb1 hb12⟩

section
variable {f g : Forecast} {onF onP onF' onP' : Nat → Nat → Int} {j b : Nat}

theorem changedBy_F (h : f.changedBy g onF onP) (hj : j ∈ sixNumbers) (hb : b ∈ binNumbers) :
    (g.pool j).F b = (f.pool j).F b + onF j b :=
  (h.2.2 j hj b hb).1

theorem changedBy_P (h : f.changedBy g onF onP) (hj : j ∈ sixNumbers) (hb : b ∈ binNumbers) :
    (g.pool j).P b = (f.pool j).P b + onP j b :=
  (h.2.2 j hj b hb).2

theorem changedBy_congr (h : f.changedBy g onF onP) (hF : ∀ j b, onF j b = onF' j b)
    (hP : ∀ j b, onP j b = onP' j b) : f.changedBy g onF' onP' := by
  obtain rfl : onF = onF' := funext₂ hF
  obtain rfl : onP = onP' := funext₂ hP
  exact h

theorem changedBy_refl (hF : ∀ j b, onF j b = 0) (hP : ∀ j b, onP j b = 0) : f.changedBy f onF onP :=
  ⟨rfl, rfl, fun j _ b _ => by simp only [hF, hP, Int.add_zero, and_self]⟩

/-- A change of 0 leaves F, also at a number that no pool has. -/
theorem changedBy_F_keeps (h : f.changedBy g onF onP) (hb : b ∈ binNumbers) (h0 : onF j b = 0) :
    (g.pool j).F b = (f.pool j).F b := by
  by_cases hj : j ∈ sixNumbers
  · rw [changedBy_F h hj hb, h0, Int.add_zero]
  · rw [pool_outside f hj, pool_outside g hj]

/-- A change of 0 leaves P, also at a number that no pool has. -/
theorem changedBy_P_keeps (h : f.changedBy g onF onP) (hb : b ∈ binNumbers) (h0 : onP j b = 0) :
    (g.pool j).P b = (f.pool j).P b := by
  by_cases hj : j ∈ sixNumbers
  · rw [changedBy_P h hj hb, h0, Int.add_zero]
  · rw [pool_outside f hj, pool_outside g hj]

end

/-! ### A release added and removed -/

/-- The truncated subtraction of the model's exposure is the max with 0 of R60. -/
theorem exposure_eq (u e d t : Nat) :
    (exposure u e d t : Int) = max 0 (min ((e + d : Nat) : Int) t - (u + d : Nat)) := by
  unfold exposure
  omega

section
variable (f : Forecast) (n travel k g u e : Nat)

theorem releaseF_eq (j b : Nat) : f.releaseF n travel k g u e j b = releaseOnF f n travel k g u e j b := by
  simp only [Forecast.releaseF, releaseOnF, Nat.cast_mul, exposure_eq, Nat.add_zero, beq_iff_eq, Bool.and_eq_true,
    decide_eq_true_eq]
  rfl

/-- R60: a release with its end at or before its start has no exposure. -/
theorem releaseOnF_empty (h : e ≤ u) (j b : Nat) : releaseOnF f n travel k g u e j b = 0 := by
  have own : max 0 (min (e : Int) ((f.start + b * f.bin : Nat) : Int) - u) = 0 := by omega
  have below : max 0 (min ((e + travel : Nat) : Int) ((f.start + b * f.bin : Nat) : Int) - (u + travel : Nat)) = 0 := by
    omega
  simp only [releaseOnF, own, below, Int.mul_zero, Int.neg_zero, ite_self]

theorem addRelease_changedBy :
    f.changedBy (f.addRelease n travel k g u e) (releaseOnF f n travel k g u e) (releaseOnP f k g u e) := by
  unfold Forecast.addRelease
  split
  · next h => exact changedBy_refl (releaseOnF_empty f n travel k g u e h) fun j b => if_neg (by omega)
  · next h =>
    refine changedBy_congr (change_changedBy f _ _) (releaseF_eq f n travel k g u e) fun j b => ?_
    simp only [releaseOnP, beq_iff_eq, Bool.and_eq_true, decide_eq_true_eq, Nat.lt_of_not_le h, true_and, and_assoc]
    rfl

theorem removeRelease_changedBy :
    f.changedBy (f.removeRelease n travel k g u e) (fun j b => -releaseOnF f n travel k g u e j b)
      (removalOnP f k g u e) := by
  unfold Forecast.removeRelease
  split
  · next h =>
    exact changedBy_refl (fun j b => by rw [releaseOnF_empty f n travel k g u e h, Int.neg_zero]) fun j b =>
      if_neg (by omega)
  · refine changedBy_congr (change_changedBy f _ _) (fun j b => by rw [releaseF_eq]) fun j b => ?_
    simp only [removalOnP, beq_iff_eq, Bool.and_eq_true, decide_eq_true_eq, and_assoc]
    rfl

end

/-! ### A grant of a claim on the published forecast -/

section
variable {s : State} {f : Forecast} (c : Claim) (g u : Nat) (e : Forecast → Nat)

theorem addGrant_published (h : s.forecast = some f) :
    s.addGrant c g u e =
      { s with forecast := some (f.addRelease s.damCount (s.travel c.dam) c.dam g (max c.start u) (e f)) } := by
  simp only [State.addGrant, State.adjust, h, Option.map_some]

theorem removeGrant_published (h : s.forecast = some f) :
    s.removeGrant c g u e =
      { s with forecast := some (f.removeRelease s.damCount (s.travel c.dam) c.dam g (max c.start u) (e f)) } := by
  simp only [State.removeGrant, State.adjust, h, Option.map_some]

end

end Sys2Proof.Machine
end

section
/-! A release added to and removed from a forecast (O25). -/

namespace Sys2Proof.Machine

/-- Settles O25: the forecast after an addition or a removal is the one before it changed by releaseOnF with releaseOnP or removalOnP
(addRelease_changedBy, removeRelease_changedBy); their branches at the claim's dam, at the one below and elsewhere are the clauses. -/
theorem forecastAdjustments : Obligations.ForecastAdjustments := by
  intro s f c g u hf hk hkn hn k first last travel tb own below
  have added := addRelease_changedBy f s.damCount travel k g first last
  have removed := removeRelease_changedBy f s.damCount travel k g first last
  refine ⟨_, _, addGrant_published c g u c.endIn hf, removeGrant_published c g u c.endIn hf,
    fun h => ⟨if_pos h, if_pos h⟩, fun h b hb hb' => ?_⟩
  have hbin : b ∈ binNumbers := mem_binNumbers.2 ⟨hb, hb'⟩
  have hdam : k ∈ sixNumbers := mem_sixNumbers.2 ⟨hk, hkn.trans hn⟩
  have onOwn : releaseOnF f s.damCount travel k g first last k b = -own b := if_pos rfl
  refine ⟨?_, ?_, ?_, ?_, fun hlast => ?_, fun j hj => ⟨?_, ?_, fun hother => ?_⟩⟩
  · exact (changedBy_F added hdam hbin).trans (by rw [onOwn, Int.sub_eq_add_neg])
  · exact (changedBy_F removed hdam hbin).trans (by simp only [onOwn, Int.neg_neg])
  · refine (changedBy_P added hdam hbin).trans ?_
    simp only [releaseOnP, h, true_and]
    rfl
  · refine (changedBy_P removed hdam hbin).trans ?_
    rw [Int.sub_eq_add_neg]
    simp only [removalOnP, true_and, apply_ite Neg.neg, Int.neg_zero]
    rfl
  · have onBelow : releaseOnF f s.damCount travel k g first last (k + 1) b = below b := by
      simp only [releaseOnF, Nat.succ_ne_self, if_false, true_and, hlast, if_true]
      rfl
    have hpool : k + 1 ∈ sixNumbers := mem_sixNumbers.2 ⟨by omega, by omega⟩
    exact ⟨(changedBy_F added hpool hbin).trans (by rw [onBelow]),
      (changedBy_F removed hpool hbin).trans (by simp only [onBelow, Int.sub_eq_add_neg])⟩
  · exact changedBy_P_keeps added hbin (if_neg fun hat => hj hat.1)
  · exact changedBy_P_keeps removed hbin (if_neg fun hat => hj hat.1)
  · have elsewhere : releaseOnF f s.damCount travel k g first last j b = 0 :=
      (if_neg hj).trans (if_neg (by omega))
    exact ⟨changedBy_F_keeps added hbin elsewhere, changedBy_F_keeps removed hbin (by rw [elsewhere, Int.neg_zero])⟩

end Sys2Proof.Machine
end

section
/-! SUPPORT. A raise in the words of the statements: the conditions that latch are all that happens on the links, and a STATUS frame
begun at once shows what the state held. -/

namespace Sys2Proof.Machine

/-- A link of no number is as at reset, so it is sound with the four. -/
theorem linkAt_ok {s : State} (h : s.linksOk) (m : Nat) : (s.linkAt m).ok := by
  by_cases hm : 1 ≤ m ∧ m ≤ 4
  · exact h m (by simp only [linkNumbers, List.mem_cons, List.not_mem_nil, or_false]; omega)
  · rw [linkAt_out s hm]
    decide

/-! ### The pools in a link's scope -/

theorem bandBit_ne : ∀ k ∈ sixNumbers, bandBit k ≠ 0#6 := by decide

theorem bandBit_disjoint : ∀ j ∈ sixNumbers, ∀ k ∈ sixNumbers, j ≠ k → bandBit j &&& bandBit k = 0#6 := by decide

/-- Band flags set for other pools leave that of pool k clear. -/
theorem foldl_bandBit_clear {p : Nat → Bool} {k : Nat} (hk : k ∈ sixNumbers) (hp : p k = false) :
    ∀ (l : List Nat) (b : BitVec 6), (∀ j ∈ l, j ∈ sixNumbers) → b &&& bandBit k = 0#6 →
      l.foldl (fun b j => if p j then b ||| bandBit j else b) b &&& bandBit k = 0#6
  | [], _, _, hb => hb
  | j :: l, b, hl, hb => by
    obtain ⟨hj, hrest⟩ := List.forall_mem_cons.1 hl
    refine foldl_bandBit_clear hk hp l _ hrest ?_
    dsimp only
    split
    · next hpj =>
      have hjk : j ≠ k := by
        rintro rfl
        rw [hp] at hpj
        exact absurd hpj Bool.false_ne_true
      rw [BitVec.and_or_distrib_right, hb, bandBit_disjoint j hj k hk hjk, BitVec.or_self]
    · exact hb

/-- R164: a STATUS frame shows the band flags of the pools in the link's scope alone. -/
theorem inScope_of_band {s : State} {k l : Nat} {v : BitVec 6} (hk : k ∈ sixNumbers)
    (h : (v &&& (s.txContext l).scope) &&& bandBit k = bandBit k) : s.inScope k l = true := by
  by_contra hout
  have clear : (s.txContext l).scope &&& bandBit k = 0#6 :=
    foldl_bandBit_clear hk (Bool.eq_false_iff.2 hout) sixNumbers 0#6 (fun _ hj => hj) BitVec.zero_and
  rw [BitVec.and_assoc, clear, BitVec.and_zero] at h
  exact bandBit_ne k hk h.symm

/-! ### What a raise leaves on the links -/

theorem statusSent_idle {x : Link} (h : x.sending = none) : x.statusSent = none := by
  unfold Link.statusSent
  rw [h]

/-- A kind that latches on a sound link with an idle transmitter begins the STATUS frame of the present contents, or none. -/
theorem latch_statusSent (ctx : TxContext) (c : Condition) {x : Link} (hx : x.ok) (hidle : x.sending = none)
    {q : Mode × Bool × BitVec 12 × BitVec 6} (h : (Link.latch ctx c x).statusSent = some q) :
    q.1 = ctx.mode ∧ q.2.1 = ctx.published ∧ q.2.2.2 = x.band &&& ctx.scope := by
  obtain ⟨_, hwait, _⟩ := hx
  unfold Link.latch at h
  extract_lets y at h
  split at h
  · rw [startTx_raiseStatus (x := y) ctx hwait, if_pos (show y.sending = none from hidle)] at h
    obtain rfl := Option.some.inj h
    exact ⟨rfl, rfl, rfl⟩
  · rw [statusSent_idle (x := y) hidle] at h
    exact absurd h (by simp)

theorem linkAt_of_links {s t : State} (h : t.links = s.links) (m : Nat) : t.linkAt m = s.linkAt m := by
  unfold State.linkAt
  rw [h]

theorem linksOnlyLatch_of_links {s t : State} (h : t.links = s.links) : s.linksOnlyLatch t := by
  refine ⟨fun m => ?_, fun m hidle q hq => ?_⟩
  · rw [linkAt_of_links h]
    exact onlyLatches_refl _
  · rw [linkAt_of_links h, statusSent_idle hidle] at hq
    exact absurd hq (by simp)

/-- R160, R164: a state with the links that a raise leaves: kinds may latch, and nothing else happens to the links. -/
theorem linksOnlyLatch_of_raise {s t : State} {c : Condition} {f : Nat → Bool} (hs : s.linksOk)
    (h : t.links = (s.raise c f).links) : s.linksOnlyLatch t := by
  refine ⟨fun m => ?_, fun m hidle q hq => ?_⟩
  · rw [linkAt_of_links h]
    exact (raise_latches s c f m (linkAt_ok hs m)).2
  · rw [linkAt_of_links h, State.raise, linkAt_gen1] at hq
    split at hq
    · split at hq
      · obtain ⟨hmode, hpublished, hband⟩ := latch_statusSent _ c (linkAt_ok hs m) hidle hq
        exact ⟨.inl hmode, .inl hpublished, fun k hk hw => .inl (inScope_of_band hk (hband ▸ hw))⟩
      · rw [statusSent_idle hidle] at hq
        exact absurd hq (by simp)
    · exact absurd hq (by simp [Link.statusSent])

end Sys2Proof.Machine
end

section
/-! SUPPORT. A pool of the pass's forecast formed again (R56). -/

namespace Sys2Proof.Machine

variable (s : State)

/-- Forming a pool reads nothing of the forecast's pools. -/
@[simp] theorem setPassPool_formPool (j : Nat) (x : PoolForecast) (p : Plan) (k : Nat) :
    (s.setPassPool j x).formPool p k = s.formPool p k := rfl

@[simp] theorem setPassPool_plan (j : Nat) (x : PoolForecast) (k : Nat) : (s.setPassPool j x).plan k = s.plan k := rfl

@[simp] theorem setPassPool_pool_same {k : Nat} (x : PoolForecast) (hk : 1 ≤ k) (hk' : k ≤ 6) :
    (s.setPassPool k x).pass.forecast.pool k = x :=
  get1_put1_same _ _ _ hk hk'

@[simp] theorem setPassPool_pool_ne {j k : Nat} (x : PoolForecast) (h : k ≠ j) :
    (s.setPassPool j x).pass.forecast.pool k = s.pass.forecast.pool k :=
  get1_put1_ne _ _ h

theorem reformPool_links (k : Nat) : (s.reformPool k).links = s.links := rfl

theorem reformPool_dams (k : Nat) : (s.reformPool k).pass.dams = s.pass.dams := rfl

/-- R56: the pass's forecast of pool k is the one its working values give. -/
def State.poolFormed (k : Nat) : Prop := s.pass.forecast.pool k = s.formPool (s.plan k) k

theorem reformPool_poolFormed {k : Nat} (hk : 1 ≤ k) (hk' : k ≤ 6) : (s.reformPool k).poolFormed k := by
  rw [State.poolFormed, State.reformPool, setPassPool_formPool, setPassPool_plan, setPassPool_pool_same s _ hk hk']

/-- Another pool formed again leaves a pool as formed. -/
theorem reformPool_keeps_poolFormed {j k : Nat} (h : k ≠ j) (hf : s.poolFormed k) : (s.reformPool j).poolFormed k := by
  rw [State.poolFormed, State.reformPool, setPassPool_formPool, setPassPool_plan, setPassPool_pool_ne s _ h]
  exact hf

end Sys2Proof.Machine
end

section
/-! The requirement of R100 as a least flow (O21). -/

namespace Sys2Proof.Machine

theorem foldl_max_le_iff {q : Nat} : ∀ (l : List Nat) (a : Nat), l.foldl max a ≤ q ↔ a ≤ q ∧ ∀ x ∈ l, x ≤ q
  | [], a => by simp
  | x :: l, a => by
    rw [List.foldl_cons, foldl_max_le_iff l, List.forall_mem_cons, Nat.max_le, and_assoc]

/-- A list's largest is at most q iff every one of it is. -/
theorem listMax_le_iff {q : Nat} (l : List Nat) : listMax l ≤ q ↔ ∀ x ∈ l, x ≤ q :=
  (foldl_max_le_iff l 0).trans (and_iff_right q.zero_le)

/-- R100: the flow that a bin's excess asks for over the seconds to that bin's end is the least that spills the excess by then. -/
theorem binNeed_le_iff (v limit : Int) (q : Nat) {seconds : Nat} (h : 0 < seconds) :
    (if 0 < v - limit then ceilDiv (v - limit).toNat seconds else 0) ≤ q ↔ v - (q * seconds : Nat) ≤ limit := by
  have least : ceilDiv (v - limit).toNat seconds ≤ q ↔ (v - limit).toNat ≤ q * seconds := by
    rw [Nat.mul_comm]
    exact ceilDiv_le_iff_le_mul h
  split
  · rw [least]
    omega
  · omega

/-- Settles O21: the requirement is the largest of the bins' needs, and each need is the least flow for its bin. -/
theorem requirementIsTheLeast : Obligations.RequirementIsTheLeast := by
  intro s k q hbin
  unfold State.requirement
  rw [listMax_le_iff, List.forall_mem_map]
  refine forall₂_congr fun b hb => ?_
  have hb1 : 0 < b := (mem_binNumbers.1 hb).1
  exact binNeed_le_iff _ _ q (Nat.mul_pos hb1 hbin)

end Sys2Proof.Machine
end

section
/-! The forcing of one dam (O20). -/

namespace Sys2Proof.Machine

variable (s : State) (k : Nat)

/-! ### The band between ceiling and flood (R102) -/

section
variable {s k} {required cap : Nat}

theorem hysteresis_raised (h : (get1 s.pass.dams k).forced ≤ required) :
    s.hysteresis k required cap = (required, false) :=
  if_pos h

theorem hysteresis_drawn (h : (s.passStorage k : Int) < s.ceilingLimit k) :
    s.hysteresis k required cap = (required, false) := by
  simp only [State.hysteresis, if_pos h, ite_self]

theorem hysteresis_held (h : required < (get1 s.pass.dams k).forced) (hs : s.ceilingLimit k ≤ (s.passStorage k : Int)) :
    s.hysteresis k required cap = (min (get1 s.pass.dams k).forced cap, true) := by
  simp only [State.hysteresis, if_neg (Nat.not_le.2 h), if_neg (Int.not_lt.2 hs)]

theorem hysteresis_held_iff : (s.hysteresis k required cap).2 = true ↔
    required < (get1 s.pass.dams k).forced ∧ s.ceilingLimit k ≤ (s.passStorage k : Int) := by
  unfold State.hysteresis
  extract_lets present
  split
  · simp only [Bool.false_eq_true, false_iff]
    omega
  · split
    · simp only [Bool.false_eq_true, false_iff]
      omega
    · simp only [true_iff]
      omega

theorem hysteresis_le_cap (h : required ≤ cap) : (s.hysteresis k required cap).1 ≤ cap := by
  by_cases hr : (get1 s.pass.dams k).forced ≤ required
  · rwa [hysteresis_raised hr]
  · by_cases hd : (s.passStorage k : Int) < s.ceilingLimit k
    · rwa [hysteresis_drawn hd]
    · rw [hysteresis_held (Nat.not_le.1 hr) (Int.not_lt.1 hd)]
      exact Nat.min_le_right _ _

end

/-! ### What the forcing writes -/

/-- R67, R99: the working values of dam k as its forcing leaves them. -/
def State.forcedDam : WorkDam :=
  let set := s.hysteresis k (min (s.requirement k) (s.forcedCap k)) (s.forcedCap k)
  { get1 s.pass.dams k with
    forced := set.1
    record := some {
      requirement := s.requirement k, cap := s.forcedCap k, capBit := decide (s.forcedCap k < s.requirement k)
      held := set.2 } }

/-- R101: the state with OVERTOP_RISK latched where the requirement of dam k is over its cap. -/
def State.riskLatched : State :=
  if s.forcedCap k < s.requirement k then s.raiseDam .overtopRisk k else s

/-- The forcing of a dam, part by part: what latches, the dam's working values, its pool formed again, and the one below. -/
theorem forceDam_eq : s.forceDam k =
    let u := ((s.riskLatched k).setWorkDam k (s.forcedDam k)).reformPool k
    if s.active.hasReach k then u.reformPool (k + 1) else u := rfl

theorem riskLatched_sansLinks : (s.riskLatched k).sansLinks = s.sansLinks := by
  unfold State.riskLatched
  split
  · exact raiseDam_sansLinks s _ _
  · rfl

theorem pass_of_sansLinks {s t : State} (h : t.sansLinks = s.sansLinks) : t.pass = s.pass :=
  (congrArg State.pass h :)

theorem riskLatched_pass : (s.riskLatched k).pass = s.pass := pass_of_sansLinks (riskLatched_sansLinks s k)

theorem forceDam_links : (s.forceDam k).links = (s.riskLatched k).links := by
  rw [forceDam_eq]
  dsimp only
  split <;> simp only [reformPool_links, setWorkDam_links]

theorem forceDam_dams : (s.forceDam k).pass.dams = put1 s.pass.dams k (s.forcedDam k) := by
  have written : ((s.riskLatched k).setWorkDam k (s.forcedDam k)).pass.dams = put1 s.pass.dams k (s.forcedDam k) := by
    rw [State.setWorkDam, riskLatched_pass]
  rw [forceDam_eq]
  dsimp only
  split <;> simp only [reformPool_dams, written]

/-- The working values of the dam that a forcing leaves. -/
theorem forceDam_dam (hk : 1 ≤ k) (hk' : k ≤ 6) : get1 (s.forceDam k).pass.dams k = s.forcedDam k := by
  rw [forceDam_dams, get1_put1_same _ _ _ hk hk']

theorem forceDam_otherDam {j : Nat} (h : j ≠ k) : get1 (s.forceDam k).pass.dams j = get1 s.pass.dams j := by
  rw [forceDam_dams, get1_put1_ne _ _ h]

/-- All of a pass but the working values of dams and the pools of its forecast. -/
def Pass.sansForcing (p : Pass) : Pass :=
  { p with dams := blank.pass.dams, forecast := { p.forecast with pools := blank.pass.forecast.pools } }

/-- All but what a forcing writes: the links and those parts of the pass. -/
def State.sansForcing : State := { s.sansLinks with pass := s.pass.sansForcing }

theorem pass_eq_of_sansForcing {p q : Pass} (h : p.sansForcing = q.sansForcing) :
    p = { q with dams := p.dams, forecast := { q.forecast with pools := p.forecast.pools } } := by
  obtain ⟨_, _, _, _, ⟨_, _, _⟩, _, _⟩ := p
  obtain ⟨_, _, _, _, ⟨_, _, _⟩, _, _⟩ := q
  simpa [Pass.sansForcing] using h

/-- A state is another but for what a forcing writes, when the views agree. -/
theorem eq_of_sansForcing {s t : State} (h : t.sansForcing = s.sansForcing) :
    t = { s with
      links := t.links
      pass := { s.pass with dams := t.pass.dams, forecast := { s.pass.forecast with pools := t.pass.forecast.pools } } } :=
  calc t = { t.sansForcing with links := t.links, pass := t.pass } := rfl
    _ = { s.sansForcing with links := t.links, pass := t.pass } := by rw [h]
    _ = { s with links := t.links, pass := t.pass } := rfl
    _ = _ := congrArg (fun p : Pass => { s with links := t.links, pass := p })
        (pass_eq_of_sansForcing (congrArg State.pass h :))

theorem reformPool_sansForcing (j : Nat) : (s.reformPool j).sansForcing = s.sansForcing := rfl

theorem setWorkDam_sansForcing (w : WorkDam) : (s.setWorkDam k w).sansForcing = s.sansForcing := rfl

theorem sansLinks_forcing {s t : State} (h : t.sansLinks = s.sansLinks) : t.sansForcing = s.sansForcing := by
  rw [eq_of_sansLinks h]
  rfl

theorem forceDam_sansForcing : (s.forceDam k).sansForcing = s.sansForcing := by
  rw [forceDam_eq]
  dsimp only
  split <;> simp only [reformPool_sansForcing, setWorkDam_sansForcing, sansLinks_forcing (riskLatched_sansLinks s k)]

/-- R99: the record says the requirement, the cap, whether the one is over the other, and whether the band holds the value. -/
theorem forcedDam_record : ∃ r, (s.forcedDam k).record = some r ∧ r.requirement = s.requirement k ∧ r.cap = s.forcedCap k ∧
    (r.capBit = true ↔ s.forcedCap k < s.requirement k) ∧
    (r.held = true ↔ min (s.requirement k) (s.forcedCap k) < (get1 s.pass.dams k).forced ∧
      s.ceilingLimit k ≤ (s.passStorage k : Int)) := by
  refine ⟨_, rfl, rfl, rfl, ?_, hysteresis_held_iff⟩
  simp only [decide_eq_true_eq]

/-! ### The pools (R103) -/

theorem forceDam_poolFormed (hk : 1 ≤ k) (hk' : k ≤ 6) : (s.forceDam k).poolFormed k := by
  rw [forceDam_eq]
  extract_lets u
  have own : u.poolFormed k := reformPool_poolFormed _ hk hk'
  split
  · exact reformPool_keeps_poolFormed u (Nat.ne_of_lt k.lt_succ_self) own
  · exact own

theorem forceDam_poolBelowFormed (hr : s.active.hasReach k = true) (hk : k < 6) : (s.forceDam k).poolFormed (k + 1) := by
  rw [forceDam_eq]
  extract_lets u
  rw [if_pos hr]
  exact reformPool_poolFormed u (Nat.le_add_left 1 k) hk

/-! ### OVERTOP_RISK (R101) -/

/-- R101: OVERTOP_RISK latches in the dam's scope when its requirement is over its cap, and nothing else latches. -/
theorem forceDam_latches : s.latchesExactly (s.forceDam k) [] fun c l =>
    c = .overtopRisk ∧ s.forcedCap k < s.requirement k ∧ s.inScope k l := by
  refine exactly_then ?_ (exactly_of_links (forceDam_links s k))
  unfold State.riskLatched
  split
  · next h => exact exactly_congr (raiseDam_exactly s .overtopRisk k) fun _ _ _ _ => by simp only [h, true_and]
  · next h => exact exactly_congr (exactly_refl s []) fun _ _ _ _ => by simp only [h, false_and, and_false]

theorem forceDam_links_of_le (h : s.requirement k ≤ s.forcedCap k) : (s.forceDam k).links = s.links := by
  rw [forceDam_links, State.riskLatched, if_neg (Nat.not_lt.2 h)]

theorem forceDam_linksOnlyLatch (hs : s.linksOk) : s.linksOnlyLatch (s.forceDam k) := by
  by_cases h : s.forcedCap k < s.requirement k
  · refine linksOnlyLatch_of_raise (c := .overtopRisk) (f := fun l => s.inScope k l) hs ?_
    rw [forceDam_links, State.riskLatched, if_pos h]
    rfl
  · exact linksOnlyLatch_of_links (forceDam_links_of_le s k (Nat.not_lt.1 h))

/-- Settles O20: the dam's working values are those of forcedDam, whose forced spill follows the cases of R102 (hysteresis_raised,
hysteresis_drawn, hysteresis_held); the latches, the two pools and the frame are the lemmas above. -/
theorem forcingOfOneDam : Obligations.ForcingOfOneDam := by
  intro s k hk hk' t need cap present w
  have hw : w = s.forcedDam k := forceDam_dam s k hk hk'
  have forced : w.forced = (s.hysteresis k (min need cap) cap).1 := by rw [hw]; rfl
  refine ⟨?_, fun h => ?_, fun _ h => ?_, fun h h' => ?_, ?_, forceDam_latches s k, forceDam_linksOnlyLatch s k,
    forceDam_links_of_le s k, forceDam_poolFormed s k hk hk', forceDam_poolBelowFormed s k, ?_, ?_,
    fun j => forceDam_otherDam s k, eq_of_sansForcing (forceDam_sansForcing s k)⟩
  · rw [forced]
    exact hysteresis_le_cap (Nat.min_le_right _ _)
  · rw [forced, hysteresis_raised h]
  · rw [forced, hysteresis_drawn h]
  · rw [forced, hysteresis_held h h']
  · rw [hw]
    exact forcedDam_record s k
  · rw [hw]
    rfl
  · rw [hw]
    rfl

end Sys2Proof.Machine
end

section
/-! SUPPORT. The reference flow at an opening (R120) and the least opening that reaches one (R121), over a rating table that starts at
zero and does not fall. -/

namespace Sys2Proof.Machine

/-! ### The rating table -/

theorem get0_of_toList {n : Nat} {α : Type} [Inhabited α] {t : Tab n α} {i : Nat} {x : α} (h : t.toList[i]? = some x) :
    get0 t i = x := by
  rw [get0, ← Vector.getElem?_toList, h, Option.getD_some]

theorem isChain_of_nonFalling : ∀ {l : List Nat}, nonFalling l = true → l.IsChain (· ≤ ·)
  | [], _ => .nil
  | [a], _ => .singleton a
  | a :: b :: l, h => by
    obtain ⟨hab, hl⟩ : a ≤ b ∧ nonFalling (b :: l) = true := by simpa [nonFalling] using h
    exact .cons_cons hab (isChain_of_nonFalling hl)

/-- What validation (R15) gives of a rating table. -/
def ChanRec.rated (r : ChanRec) : Prop :=
  get0 r.rating 0 = 0 ∧ ∀ i < 8, get0 r.rating i ≤ get0 r.rating (i + 1)

theorem rated_of_ok {r : ChanRec} (h : r.ok = true) : r.rated := by
  obtain ⟨zero, rise⟩ : get0 r.rating 0 = 0 ∧ nonFalling r.rating.toList = true := by
    simp only [ChanRec.ok, Bool.and_eq_true, beq_iff_eq] at h
    tauto
  refine ⟨zero, fun i hi => ?_⟩
  have step := List.isChain_iff_getElem.1 (isChain_of_nonFalling rise) i (by simpa using Nat.succ_lt_succ hi)
  simpa [get0, Nat.lt_succ_of_lt hi, Nat.succ_lt_succ hi] using step

/-! ### The reference flow (R120) -/

section
variable {r : ChanRec} {i : Nat}

theorem reference_inside {o : Nat} (hi : i < 8) (lo : 125 * i ≤ o) (inside : o < 125 * (i + 1)) :
    r.reference o =
      get0 r.rating i + (get0 r.rating (i + 1) - get0 r.rating i) * (o - 125 * i) / 125 := by
  have below : o ≠ 1000 := by omega
  have seg : o / 125 = i := by omega
  simp [ChanRec.reference, below, seg]

theorem reference_start (hi : i < 8) : r.reference (125 * i) = get0 r.rating i := by
  simp [reference_inside hi (Nat.le_refl _) (by omega)]

theorem reference_stop (hi : i < 8) : r.reference (125 * (i + 1)) = get0 r.rating (i + 1) := by
  obtain rfl | inner := Nat.eq_or_lt_of_le (Nat.le_of_lt_succ hi)
  · rfl
  · exact reference_start (Nat.succ_lt_succ inner)

end

section
variable {r : ChanRec} (rated : r.rated)
include rated

/-- The line of segment i gives the reference flow at both of its ends too. -/
theorem reference_of_segment {i o : Nat} (hi : i < 8) (lo : 125 * i ≤ o) (hi' : o ≤ 125 * (i + 1)) :
    r.reference o =
      get0 r.rating i + (get0 r.rating (i + 1) - get0 r.rating i) * (o - 125 * i) / 125 := by
  obtain rfl | inside := Nat.eq_or_lt_of_le hi'
  · have span : 125 * (i + 1) - 125 * i = 125 := by omega
    rw [reference_stop hi, span, Nat.mul_div_cancel _ (by decide), Nat.add_sub_cancel' (rated.2 i hi)]
  · exact reference_inside hi lo inside

theorem reference_le_succ {o : Nat} (ho : o < 1000) : r.reference o ≤ r.reference (o + 1) := by
  have hi : o / 125 < 8 := by omega
  rw [reference_of_segment rated hi (by omega) (by omega), reference_of_segment rated hi (by omega) (by omega)]
  gcongr
  omega

theorem reference_mono {a b : Nat} (hab : a ≤ b) (hb : b ≤ 1000) : r.reference a ≤ r.reference b := by
  induction b, hab using Nat.le_induction with
  | base => exact Nat.le_refl _
  | succ b _ ih => exact (ih (by omega)).trans (reference_le_succ rated (by omega))

theorem flow_mono (head : Nat) {a b : Nat} (hab : a ≤ b) (hb : b ≤ 1000) : r.flow a head ≤ r.flow b head :=
  Nat.div_le_div_right (Nat.mul_le_mul_right _ (reference_mono rated hab hb))

end

/-! ### The segment sought (R121) -/

/-- From a table entry below the target, the search ends in a segment whose ends enclose the target, where an entry reaches it. -/
theorem segmentOpening_eq {target : Nat} : ∀ (l : List Nat) (i a : Nat), a < target → (∃ b ∈ l, target ≤ b) →
    ∃ j x y, (a :: l)[j]? = some x ∧ (a :: l)[j + 1]? = some y ∧ x < target ∧ target ≤ y ∧
      segmentOpening target i (a :: l) = 125 * (i + j) + ceilDiv ((target - x) * 125) (y - x)
  | [], _, _, _, ⟨_, hb, _⟩ => nomatch hb
  | b :: l, i, a, ha, reached => by
    by_cases hb : target ≤ b
    · exact ⟨0, a, b, rfl, rfl, ha, hb, by simp [segmentOpening, ha, hb]⟩
    · have later : ∃ b ∈ l, target ≤ b := by simpa [hb] using reached
      obtain ⟨j, x, y, hx, hy, hlt, hle, e⟩ := segmentOpening_eq l (i + 1) b (Nat.not_le.1 hb) later
      refine ⟨j + 1, x, y, hx, hy, hlt, hle, ?_⟩
      rw [segmentOpening, if_neg (by simp [hb]), e, Nat.add_right_comm i 1 j, Nat.add_assoc i j 1]

/-- Within a segment from x to y, the opening of R121 is the least whose point on the line reaches the target. -/
theorem segment_le_iff {target x y : Nat} (m : Nat) (hx : x < target) (hy : target ≤ y) :
    ceilDiv ((target - x) * 125) (y - x) ≤ m ↔ target ≤ x + (y - x) * m / 125 := by
  calc
    _ ↔ (target - x) * 125 ≤ (y - x) * m := ceilDiv_le_iff_le_mul (by omega)
    _ ↔ target - x ≤ (y - x) * m / 125 := (Nat.le_div_iff_mul_le (by decide)).symm
    _ ↔ _ := by omega

section
variable {r : ChanRec} (rated : r.rated)
include rated

theorem segmentOpening_rating {target : Nat} (pos : 0 < target) (reached : target ≤ r.reference 1000) :
    ∃ i < 8, get0 r.rating i < target ∧ target ≤ get0 r.rating (i + 1) ∧
      segmentOpening target 0 r.rating.toList = 125 * i +
        ceilDiv ((target - get0 r.rating i) * 125) (get0 r.rating (i + 1) - get0 r.rating i) := by
  have table : r.rating.toList = get0 r.rating 0 :: r.rating.toList.tail := by
    have ne : r.rating.toList ≠ [] := List.ne_nil_of_length_pos (by simp)
    rw [← List.cons_head_tail ne]
    simp [get0, List.head_eq_getElem]
  have top : get0 r.rating 8 ∈ r.rating.toList.tail :=
    List.mem_iff_getElem.2 ⟨7, by simp, by simp [get0]⟩
  have start : get0 r.rating 0 < target := by rw [rated.1]; exact pos
  obtain ⟨i, x, y, hx, hy, hlt, hle, e⟩ :=
    segmentOpening_eq r.rating.toList.tail 0 (get0 r.rating 0) start ⟨_, top, reached⟩
  rw [← table] at hx hy e
  have hi : i + 1 < 9 := by simpa using (List.getElem?_eq_some_iff.1 hy).1
  obtain rfl : get0 r.rating i = x := get0_of_toList hx
  obtain rfl : get0 r.rating (i + 1) = y := get0_of_toList hy
  exact ⟨i, Nat.lt_of_succ_lt_succ hi, hlt, hle, by rw [e, Nat.zero_add]⟩

/-- R121 case 3: the opening found is the least that reaches the reference flow sought. -/
theorem segmentOpening_le_iff {target p : Nat} (pos : 0 < target) (reached : target ≤ r.reference 1000) (hp : p ≤ 1000) :
    segmentOpening target 0 r.rating.toList ≤ p ↔ target ≤ r.reference p := by
  obtain ⟨i, hi, hx, hy, e⟩ := segmentOpening_rating rated pos reached
  have inside : ∀ o, 125 * i ≤ o → o ≤ 125 * (i + 1) →
      (segmentOpening target 0 r.rating.toList ≤ o ↔ target ≤ r.reference o) := fun o lo hi' => by
    rw [reference_of_segment rated hi lo hi', ← segment_le_iff (o - 125 * i) hx hy, e]
    omega
  obtain below | lo := Nat.lt_or_ge p (125 * i)
  · have short : r.reference p < target :=
      (reference_mono rated below.le (by omega)).trans_lt (by rwa [reference_start hi])
    omega
  obtain above | hi' := Nat.lt_or_ge (125 * (i + 1)) p
  · have stop : target ≤ r.reference (125 * (i + 1)) := by rwa [reference_stop hi]
    have found := (inside _ (by omega) (Nat.le_refl _)).2 stop
    exact iff_of_true (found.trans above.le) (stop.trans (reference_mono rated above.le hp))
  · exact inside p lo hi'

end

end Sys2Proof.Machine
end

section
/-! The opening for a flow (O31). -/

namespace Sys2Proof.Machine

/-- R121: a flow is reached where the reference flow sought for it is. -/
theorem le_flow_iff (r : ChanRec) (flow p : Nat) {head : Nat} (h : 0 < r.factor head) :
    flow ≤ r.flow p head ↔ ceilDiv (flow * 1024) (r.factor head) ≤ r.reference p := by
  rw [ChanRec.flow, Nat.le_div_iff_mul_le (by decide), Nat.mul_comm (r.reference p)]
  exact (ceilDiv_le_iff_le_mul h).symm

theorem openingFor_zero (r : ChanRec) (head : Nat) : r.openingFor 0 head = (0, false) := rfl

section
variable {r : ChanRec} {flow head : Nat} (pos : 1 ≤ flow)
include pos

theorem openingFor_short (h : r.capacity head < flow) : r.openingFor flow head = (1000, true) := by
  simp [ChanRec.openingFor, Nat.ne_of_gt pos, h]

theorem factor_pos_of_reached (h : flow ≤ r.capacity head) : 0 < r.factor head :=
  Nat.pos_of_ne_zero fun zero => by
    have noFlow : r.capacity head = 0 := by simp [ChanRec.capacity, ChanRec.flow, zero]
    omega

theorem openingFor_reached (h : flow ≤ r.capacity head) :
    r.openingFor flow head = (segmentOpening (ceilDiv (flow * 1024) (r.factor head)) 0 r.rating.toList, false) := by
  simp [ChanRec.openingFor, Nat.ne_of_gt pos, Nat.ne_of_gt (factor_pos_of_reached pos h), Nat.not_lt.2 h]

/-- Where the capacity reaches the flow sought, an opening reaches it iff it is at least the one found. -/
theorem openingFor_le_iff (rated : r.rated) (h : flow ≤ r.capacity head) {p : Nat} (hp : p ≤ 1000) :
    (r.openingFor flow head).1 ≤ p ↔ flow ≤ r.flow p head := by
  have factor := factor_pos_of_reached pos h
  have sought : 0 < ceilDiv (flow * 1024) (r.factor head) := Nat.div_pos (by omega) factor
  rw [openingFor_reached pos h, le_flow_iff r flow p factor]
  exact segmentOpening_le_iff rated sought ((le_flow_iff r flow 1000 factor).1 h) hp

end

/-- Settles O31: openingFor_le_iff makes the opening found the least that reaches the flow, and flow_mono is the last clause. -/
theorem openingForAFlow : Obligations.OpeningForAFlow := by
  refine ⟨fun r flow head ok pos => ?_, fun r head a b ok => flow_mono (rated_of_ok ok) head⟩
  intro o
  obtain short | reached := Nat.lt_or_ge (r.capacity head) flow
  · have whole : o = (1000, true) := openingFor_short pos short
    exact ⟨openingFor_zero r head, by simp [whole], fun h => absurd h (Nat.not_le.2 short), fun _ => whole⟩
  · have least : ∀ p ≤ 1000, o.1 ≤ p ↔ flow ≤ r.flow p head :=
      fun p => openingFor_le_iff pos (rated_of_ok ok) reached
    have bound : o.1 ≤ 1000 := (least 1000 (Nat.le_refl _)).2 reached
    have mark : o.2 = false := congrArg Prod.snd (openingFor_reached pos reached)
    refine ⟨openingFor_zero r head, bound, fun _ => ⟨mark, (least _ bound).1 (Nat.le_refl _), fun p hp => ?_⟩,
      fun h => absurd reached (Nat.not_le.2 h)⟩
    exact Nat.lt_of_not_le fun h => Nat.not_le.2 hp ((least p (hp.le.trans bound)).2 h)

end Sys2Proof.Machine
end
